-- ==== Sys2Proof/Word.lean ====
section
/-! DEFINITION. The widths the manual gives its quantities (00_scope.md, 0.5) and the index types of its blocks (0.3). -/

namespace Sys2Proof

/-- One byte, the unit of every layout of section 1.6. -/
abbrev Byte := BitVec 8

/-- A sequence number or count taken modulo 65536 (0.5). -/
abbrev Half := BitVec 16

/-- A register word or a time stamp (0.5, R49). -/
abbrev Word := BitVec 32

/-- A host memory address. -/
abbrev Addr := BitVec 64

/-- The part clock, a 48-bit count of microseconds (R48). -/
abbrev Clock := BitVec 48

/-- Stations are numbered 0 to 23 (0.5). -/
abbrev StationId := Fin 24

/-- Actuator channels ACT0 to ACT3 within a station (0.5). -/
abbrev ChannelId := Fin 4

/-- Measurement units U0 to U5 (0.5). -/
abbrev UnitId := Fin 6

/-- Cohorts 0 to 7 (0.5). -/
abbrev CohortId := Fin 8

/-- The two measurement slots of a station (R121). -/
abbrev SlotId := Fin 2

end Sys2Proof
end

