-- ==== Sys2Proof/Syntax.lean ====
section
/-! DEFINITION. The commands of the block: one constructor per row of spec/opcode_table.json, with its operands. -/

namespace Sys2Proof

/-- The causes of a cold reset (R194). -/
inductive ResetCause
  | powerOn
  | fundamental
  | hot
  deriving DecidableEq, Repr

/-- The two sync lines (chapter 8). -/
inductive Line
  | a
  | b
  deriving DecidableEq, Repr

/-- The inputs of a station that pass through an input filter (R57). -/
inductive FilteredPin
  | sense0
  | sense1
  | supplyGood
  | trip
  deriving DecidableEq, Repr

/-- The input filters of the part (R57). -/
inductive FilterId
  | station (n : StationId) (p : FilteredPin)
  | sync (l : Line)
  deriving DecidableEq, Repr

/-- What the world outside does to a PROBE line: it leaves it, the handset drives it low, or it is held high against the
part's drive (R67, log entry 35). -/
inductive ProbeDrive
  | released
  | low
  | high
  deriving DecidableEq, Repr

/-- The raw inputs besides PROBE (R57): the filtered ones and the nest switch. For a sync line the input is what the
other parts on it do: true when none of them pulls it low. -/
inductive InputId
  | filtered (f : FilterId)
  | seat (n : StationId)
  deriving DecidableEq, Repr

/-- What a completion reports (R170). -/
inductive CompletionStatus
  | success
  | error
  | poisoned
  deriving DecidableEq, Repr

/-- The commands. A CONTROL write and every other register write carries the 32-bit word and its four byte enables,
bit i of `be` enabling byte i (R184). The seven CONTROL rows are one register write each (log entry 22). -/
inductive Instr
  | coldReset (cause : ResetCause)
  | softReset (w : Word) (be : BitVec 4)
  | startRequest (w : Word) (be : BitVec 4)
  | quiesce (w : Word) (be : BitVec 4)
  | leaveFaulted (w : Word) (be : BitVec 4)
  | faultedToConfig
  | syncUseSet (w : Word) (be : BitVec 4)
  | syncUseClear (w : Word) (be : BitVec 4)
  | sweepPeriod (w : Word) (be : BitVec 4)
  | sweep (w : Word) (be : BitVec 4)
  | attentionClear (w : Word) (be : BitVec 4)
  | noticeMaskWrite (w : Word) (be : BitVec 4)
  /-- `reg` is the word index of the register, its offset divided by 4 (section 1.6). -/
  | registerWrite (reg : Nat) (w : Word) (be : BitVec 4)
  | msTick
  | sweepTimerExpiry
  | sendEntry
  /-- `tag` names the sent read, `first` is the offset within it of the first byte carried (log entry 11). -/
  | readCompletion (tag : Nat) (status : CompletionStatus) (first : Nat) (data : List Byte)
  | completionTimeout (tag : Nat)
  | pause (n : StationId)
  | note (n : StationId)
  | setup (n : StationId)
  | query (n : StationId)
  | awaitAttention (n : StationId)
  | press (n : StationId)
  | tap (n : StationId)
  | hold (n : StationId)
  | lift (n : StationId)
  | supply (n : StationId)
  | arm (n : StationId)
  | collect (n : StationId)
  | barrier (n : StationId)
  | retirement (n : StationId)
  | discarded (n : StationId)
  | pauseExpiry (n : StationId)
  | breakBegin (n : StationId)
  | bitError (n : StationId)
  | querySent (n : StationId)
  | answerStart (n : StationId)
  | answerByte (n : StationId)
  | gapTimeout (n : StationId)
  | noAnswer (n : StationId)
  | recoverEnd (n : StationId)
  /-- `outside` says what the world outside does to the line from now on. -/
  | probeEdge (n : StationId) (outside : ProbeDrive)
  | lineFaultEntry (n : StationId)
  | lineFaultEnd (n : StationId)
  | attentionRecognition (n : StationId)
  | noAttention (n : StationId)
  | delayEnd (n : StationId) (c : ChannelId)
  | pressWidthEnd (n : StationId) (c : ChannelId)
  | tapOnEnd (n : StationId) (c : ChannelId)
  | periodBoundary (n : StationId) (c : ChannelId)
  | firstEvaluation (n : StationId)
  | seatChange (n : StationId)
  /-- `high` is the new raw level; for SEAT it is true when the switch is closed. -/
  | inputChange (i : InputId) (high : Bool)
  | filterAcceptance (f : FilterId)
  | supplyGoodRise (n : StationId)
  | noSupplyGood (n : StationId)
  | tripAccepted (n : StationId)
  | lossOfSupplyGood (n : StationId)
  | measuredEdge (u : UnitId)
  | windowExpiry (u : UnitId)
  | gateEnd (u : UnitId)
  | noUnit (n : StationId)
  | collectTimeout (n : StationId)
  | barrierTimeout (n : StationId)
  | syncRise (l : Line)
  | syncFall (l : Line)
  | syncHoldEnd (l : Line)
  | quiesceComplete
  | messageOffer
  | holdoffEnd
  | breakEnd (n : StationId)
  | delimiterEnd (n : StationId)
  deriving DecidableEq, Repr

end Sys2Proof
end

