-- ==== Sys2Proof/WellFormed.lean ====
section
/-! DEFINITION. Which command terms spell a command of their row: the operand checks that the types do not make. A
command outside them is still a register write or a completion, and exec gives it that meaning (log entry 31). -/

namespace Sys2Proof

/-- The bits a CONTROL write of each row carries (R186): RUN is bit 0, SOFT_RESET bit 1, SYNCA_USE bit 2, SYNCB_USE bit
3, all in byte 0. -/
def Instr.controlBits (w : Word) (be : BitVec 4) (soft run : Bool) : Bool :=
  be.getLsbD 0 && (w.getLsbD 1 == soft) && (w.getLsbD 0 == run)

/-- The operand checks, one per row that has any. -/
def Instr.wellFormed : Instr → Bool
  | .softReset w be => be.getLsbD 0 && w.getLsbD 1
  | .startRequest w be => Instr.controlBits w be false true
  | .quiesce w be => Instr.controlBits w be false false
  | .leaveFaulted w be => Instr.controlBits w be false false
  | .syncUseSet w be => be.getLsbD 0 && !w.getLsbD 1 && (w.getLsbD 2 || w.getLsbD 3)
  | .syncUseClear w be => be.getLsbD 0 && !w.getLsbD 1 && (!w.getLsbD 2 || !w.getLsbD 3)
  | .sweepPeriod w be => (be.getLsbD 2 || be.getLsbD 3) && !(be.getLsbD 0 && w.getLsbD 1)
  | .registerWrite reg _ _ => reg == 3 || reg == 4 || reg == 5
  | .coldReset _ | .faultedToConfig | .sweep _ _ | .attentionClear _ _ | .noticeMaskWrite _ _ | .msTick
  | .sweepTimerExpiry | .sendEntry | .readCompletion _ _ _ _ | .completionTimeout _ => true
  | .pause _ | .note _ | .setup _ | .query _ | .awaitAttention _ | .press _ | .tap _ | .hold _ | .lift _ | .supply _
  | .arm _ | .collect _ | .barrier _ | .retirement _ | .discarded _ | .pauseExpiry _ => true
  | .breakBegin _ | .bitError _ | .querySent _ | .answerStart _ | .answerByte _ | .gapTimeout _ | .noAnswer _
  | .recoverEnd _ | .probeEdge _ _ | .lineFaultEntry _ | .lineFaultEnd _ | .attentionRecognition _ | .noAttention _
  | .breakEnd _ | .delimiterEnd _ => true
  | .delayEnd _ _ | .pressWidthEnd _ _ | .tapOnEnd _ _ | .periodBoundary _ _ => true
  | .firstEvaluation _ | .seatChange _ | .inputChange _ _ | .filterAcceptance _ | .supplyGoodRise _ | .noSupplyGood _
  | .tripAccepted _ | .lossOfSupplyGood _ => true
  | .measuredEdge _ | .windowExpiry _ | .gateEnd _ | .noUnit _ | .collectTimeout _ | .barrierTimeout _ => true
  | .syncRise _ | .syncFall _ | .syncHoldEnd _ | .quiesceComplete | .messageOffer | .holdoffEnd => true

/-- A command whose operands spell its row. -/
abbrev Instr.WellFormed (i : Instr) : Prop := i.wellFormed = true

end Sys2Proof
end

