-- ==== Sys2Proof/Decode.lean ====
section
/-! DEFINITION. The decoder over the table's bits. No row of spec/opcode_table.json gives any bits ("fields" is empty
in all of them), so no word spells a command (log entry 29). -/

namespace Sys2Proof

/-- The command a word spells by the table's bits: none, for the table gives no row any. -/
def decodeTableWord (_nbits _w : Nat) : Option Instr := none

end Sys2Proof
end

