-- ==== Sys2Proof/Config.lean ====
section
/-! DEFINITION. The fixed numbers of the part and its one free value. -/

namespace Sys2Proof.Config

/-- REFCLK periods in a microsecond (R48, R52). -/
abbrev periodsPerMicro : Nat := 25

/-- Advances of the part clock in a millisecond tick (R50). -/
abbrev microsPerTick : Nat := 1000

/-- Entries of the request queue (R164). -/
abbrev queueRoom : Nat := 16

/-- The completion timer of a sent read, 10 ms in REFCLK periods (R171). -/
abbrev completionPeriods : Nat := 250000

/-- The fixed filter time of SUPPLY_GOOD in microseconds (R57). -/
abbrev supplyGoodMicros : Nat := 100

/-- The fixed filter time of the sync lines in microseconds (R57). -/
abbrev syncMicros : Nat := 5

/-- The hold of a released sync line in microseconds (R160). -/
abbrev holdMicros : Nat := 50

/-- A dominant level of this many REFCLK periods, 25 ms, is a stuck line (R78). -/
abbrev stuckPeriods : Nat := 625000

/-- A recessive level of this many REFCLK periods, 1 ms, ends LINE_FAULT (R79). -/
abbrev faultRestPeriods : Nat := 25000

/-- Ticks of the seat debounce (R105). -/
abbrev seatTicks : Nat := 20

/-- A FREE VALUE (log entry 3): which of several events that are due at one instant is taken first. The manual lets
either be first (R42, R51, R55, R99 and others); the argument is the counter State.choices. -/
opaque eventChoice : Nat → Nat

end Sys2Proof.Config
end

