-- ==== Sys2Proof/Machine/State.lean ====
section
/-! DEFINITION. The state of the part as plain data, block by block, and the state after a cold reset. -/

namespace Sys2Proof.Machine

/-! ### Time Base (chapter 3) -/

/-- The Time Base (R48, R50). `tickDue` marks an ms tick that has come and is not yet taken; `firstPeriod` holds until
the first REFCLK period after a reset has passed (R58). -/
structure TimeBase where
  clock : Clock
  prescale : Nat
  msDiv : Nat
  tickDue : Bool
  firstPeriod : Bool
  deriving DecidableEq, Repr

/-! ### Part Control and the register window (chapter 10) -/

/-- The part states (R188). -/
inductive PartState
  | config
  | active
  | quiescing
  | faulted
  deriving DecidableEq, Repr

/-- The destinations of a quiesce (R190, R191). -/
inductive Destination
  | config
  | faulted
  deriving DecidableEq, Repr

/-- The fault codes (R185). -/
inductive FaultCode
  | none
  | badBase
  | sweepRead
  deriving DecidableEq, Repr

/-- Part Control and the registers it holds (R184 to R193). `base` is the WORK_BASE latched at the last entry into
ACTIVE (R1); `leaving` holds from a write clearing RUN in FAULTED until the part has left it (R193). -/
structure Control where
  state : PartState
  dest : Destination
  fault : FaultCode
  leaving : Bool
  run : Bool
  useA : Bool
  useB : Bool
  period : Half
  holdoff : Half
  workLo : Word
  workHi : Word
  base : Addr
  deriving DecidableEq, Repr

/-- The Directory Sweep (R7, R8). The timer counts REFCLK periods; some 0 is an expiry not yet taken. -/
structure Sweep where
  timer : Option Nat
  pending : Bool
  inFlight : Bool
  deriving DecidableEq, Repr

/-- The states of the Notice Block writer (10.2). -/
inductive WriterState
  | idle
  | sending
  | holdoff
  deriving DecidableEq, Repr

/-- The attention bits and the Notice Block writer (R177 to R183). -/
structure Notice where
  attention : Word
  mask : Word
  pending : Bool
  writer : WriterState
  timer : Option Nat
  count : Word
  offered : Bool
  awaitHeld : List StationId
  deriving DecidableEq, Repr

/-! ### Station contexts (chapters 1 and 2) -/

/-- The station states (R19). -/
inductive StationState
  | idle
  | ready
  | fetching
  | running
  | waitingUnit
  | atBarrier
  | posting
  | halted
  deriving DecidableEq, Repr

/-- The halt reasons (R32). -/
inductive HaltReason
  | none
  | stepFailed
  | stopRequest
  | supplyTrip
  | unseated
  | memoryFault
  | stripMismatch
  | badHandover
  | badEntry
  deriving DecidableEq, Repr

/-- The station settings (R46). Filter times of SENSE in microseconds, the trip filter in units of 10 microseconds, the
attention minimum in milliseconds; bit c of `polarity` makes ACTc active-low. -/
structure Settings where
  divInt : Nat
  divFrac : Nat
  breakLen : Nat
  delimiter : Nat
  stopBits : Nat
  gapLimit : Nat
  short : Bool
  attnMin : Nat
  sense0 : Nat
  sense1 : Nat
  polarity : BitVec 4
  tripFilter : Nat
  deriving DecidableEq, Repr

/-- The measurement kinds (section 1.6). -/
inductive MeasKind
  | interval
  | width
  | frequency
  | edges
  deriving DecidableEq, Repr

/-- The start conditions (R125). -/
inductive StartCond
  | immediate
  | edgeX
  | attention
  | release
  deriving DecidableEq, Repr

/-- The measurable signals (R122). -/
inductive Signal
  | probe
  | sense0
  | sense1
  | act (c : ChannelId)
  | supplyGood
  | seat
  deriving DecidableEq, Repr

/-- The edge codes (section 1.6). -/
inductive EdgeCode
  | rising
  | falling
  | both
  deriving DecidableEq, Repr

/-- The gating codes of EDGES (section 1.6). -/
inductive Gating
  | none
  | whileHigh
  | whileLow
  deriving DecidableEq, Repr

/-- The settings a unit keeps from its ARM (R124). Window in milliseconds, gate in microseconds. -/
structure ArmSettings where
  kind : MeasKind
  start : StartCond
  x : Signal
  y : Signal
  xEdge : EdgeCode
  yEdge : EdgeCode
  gating : Gating
  window : Nat
  gate : Nat
  deriving DecidableEq, Repr

/-- The parameters of a QUERY (4.3). -/
structure QuerySpec where
  expectAnswer : Bool
  rawCheck : Bool
  expectStatus : Bool
  tag : Nat
  payload : List Byte
  check : Byte
  status : Byte
  deriving DecidableEq, Repr

/-- A step's kind with its parameters, as validated at dispatch (R24, section 1.6). -/
inductive StepOp
  | pause (length : Nat)
  | note (bytes : List Byte)
  | setup (v : Settings)
  | query (q : QuerySpec)
  | awaitAttention (fresh : Bool)
  | press (c : ChannelId) (delay width : Nat)
  | tap (c : ChannelId) (period width count : Nat)
  | hold (c : ChannelId)
  | lift (c : Option ChannelId)
  | supply (on : Bool)
  | arm (slot : SlotId) (a : ArmSettings)
  | collect (slot : SlotId)
  | barrier (line : Option Line) (channel : Option ChannelId) (delay width : Nat)
  | invalid
  deriving DecidableEq, Repr

/-- The dispositions (section 1.6). -/
inductive Disposition
  | halt
  | continue
  | skip (n : Nat)
  deriving DecidableEq, Repr

/-- The step in flight (R24, R25). `handed` holds from dispatch until the owning block has taken the step (log entry 7). -/
structure InFlight where
  op : StepOp
  start : Word
  noticeFlag : Bool
  attached : Bool
  disp : Disposition
  deadline : Nat
  handed : Bool
  deriving DecidableEq, Repr

/-- The outcome codes (section 1.6). -/
inductive Code
  | ok
  | badStep
  | setupBusy
  | noAnswer
  | answerLead
  | answerFrame
  | answerLength
  | answerCheck
  | gapTimeout
  | bitError
  | statusMismatch
  | lineStuck
  | noAttention
  | actuatorBusy
  | releasePulseBusy
  | notSeated
  | noSupplyGood
  | noUnit
  | slotBusy
  | slotEmpty
  | collectTimeout
  | noEdge
  | barrierTimeout
  | supplyTrip
  | unseated
  | stopped
  | skipped
  | discarded
  | stripMismatch
  deriving DecidableEq, Repr

/-- What a station in POSTING posts (R28, R21, R22, R35). `discard e` is a range that ends before sequence e; `reported` is a
posting whose outcome is retired and whose part-half write still waits for room (R28, log entry 37). -/
inductive Posting
  | none
  | ordinary (code : Code) (noticeFlag : Bool) (disp : Disposition)
  | skipped
  | mismatch
  | discard (last : Half)
  | reported (code : Code) (disp : Disposition)
  deriving DecidableEq, Repr

/-- A request the station cannot offer yet, because an earlier one of its own has not left the queue (R165). The bytes
of a DISCARDED outcome are made when it is offered (R35). -/
inductive Backlog
  | fetch
  | outcome (bytes : List Byte)
  | discarded
  deriving DecidableEq, Repr

/-- A station context (R4, R19). `pendingHalt` is the reason first decided for a halt not yet entered (R32);
`disabling` holds while a disable or quiesce is in progress (R13, R42). -/
structure Context where
  state : StationState
  halt : HaltReason
  taken : Half
  retired : Half
  lastRun : Half
  lastRead : Half
  stopSeen : Byte
  resumeSeen : Byte
  skipDebt : Nat
  badMark : Bool
  base : Addr
  exp : Nat
  cohort : Option CohortId
  settings : Settings
  deadline : Option Nat
  step : Option InFlight
  posting : Posting
  backlog : Option Backlog
  pendingHalt : Option HaltReason
  disabling : Bool
  deriving DecidableEq, Repr

/-! ### Probe Link Controllers (chapter 4) -/

/-- The link states (R62). -/
inductive LinkState
  | idle
  | break
  | delimit
  | send
  | awaitAnswer
  | receive
  | recover
  | lineFault
  deriving DecidableEq, Repr

/-- The copy of the link settings (R64). -/
structure LinkCopy where
  divInt : Nat
  divFrac : Nat
  breakLen : Nat
  delimiter : Nat
  stopBits : Nat
  gapLimit : Nat
  short : Bool
  deriving DecidableEq, Repr

/-- The line monitor (R77, R80): the present level, its age in REFCLK periods, the link state and the attention minimum
(in milliseconds) when it began. -/
structure Monitor where
  high : Bool
  age : Nat
  beganIn : LinkState
  attnMin : Nat
  deriving DecidableEq, Repr

/-- A Probe Link Controller (R62). `left`, `sample` and `votes` are its bit timer (R60, R61); `bits` are the bits of the
present phase still to be sent, the first being on the line; `wait` counts the sample intervals of a gap or a RECOVER
wait (R71, R75); `outside` is what the world outside does to the line, an input. -/
structure Link where
  state : LinkState
  copy : LinkCopy
  acc : Nat
  left : Nat
  sample : Nat
  votes : List Bool
  bits : List Bool
  mismatch : Bool
  bitEnd : Bool
  waiting : Bool
  wait : Option Nat
  inByte : Bool
  rxBits : List Bool
  done : Option (List Bool)
  startDue : Bool
  status : Byte
  len : Byte
  count : Nat
  buffer : List Byte
  latch : Option Word
  recog : Option Word
  attnCount : Byte
  faultCount : Byte
  mon : Monitor
  outside : ProbeDrive
  deriving DecidableEq, Repr

/-! ### Actuator Channels (chapter 5) -/

/-- The channel states (R86). -/
inductive ChannelState
  | idle
  | delay
  | asserted
  | held
  | tapOn
  | tapOff
  deriving DecidableEq, Repr

/-- The pulse settings (5.1). `left` is the number of periods still to begin, none for endless (R93). -/
inductive Pulse
  | none
  | press (width : Nat) (attached : Bool)
  | tap (period width : Nat) (left : Option Nat)
  deriving DecidableEq, Repr

/-- The tap shadow (R95). -/
structure Shadow where
  period : Nat
  width : Nat
  count : Nat
  deriving DecidableEq, Repr

/-- An actuator channel (R86). The phase timer counts ms ticks; some 0 is an expiry not yet taken. -/
structure Channel where
  state : ChannelState
  timer : Option Nat
  pulse : Pulse
  shadow : Option Shadow
  stamp : Word
  deriving DecidableEq, Repr

/-! ### Input filters, seat and supply (chapters 3 and 6) -/

/-- An input filter (R56): the raw level, the accepted level, and the REFCLK periods a candidate has still to last. -/
structure Filter where
  raw : Bool
  accepted : Bool
  cand : Option Nat
  deriving DecidableEq, Repr

/-- The supply states (R108). -/
inductive SupplyState
  | off
  | ramping
  | on
  | tripped
  deriving DecidableEq, Repr

/-- A Seat and Supply block (chapter 6). `goodRise` and `tripRise` mark an accepted edge the block has not yet taken
(log entry 23). -/
structure Power where
  rawSeat : Bool
  seated : Bool
  evaluated : Bool
  run : Nat
  runDir : Option Bool
  supply : SupplyState
  tripCount : Byte
  seatCount : Byte
  good : Filter
  trip : Filter
  loss : Option Nat
  goodRise : Bool
  tripRise : Bool
  deriving DecidableEq, Repr

/-- Everything the part holds for one station. -/
structure Station where
  ctx : Context
  link : Link
  chans : Vector Channel 4
  power : Power
  sense0 : Filter
  sense1 : Filter
  deriving DecidableEq, Repr

/-! ### Measurement Unit Pool (chapter 7) -/

/-- The unit states (R120). -/
inductive UnitState
  | free
  | armed
  | running
  | done
  deriving DecidableEq, Repr

/-- The completion codes (R131). -/
inductive Completion
  | complete
  | noStart
  | noStop
  deriving DecidableEq, Repr

/-- An edge that has reached a unit (R122): its signal, the level it reaches, its stamp. -/
structure EdgeEvent where
  signal : Signal
  high : Bool
  stamp : Word
  deriving DecidableEq, Repr

/-- A measurement unit (R120, R121, R123, R126, R129, R131). The window counts ms ticks, the gate REFCLK periods;
`inbox` holds the edges that have reached the unit and are not yet taken, oldest first (log entry 23). -/
structure MeasUnit where
  state : UnitState
  binding : Option (StationId × SlotId)
  arm : ArmSettings
  obsX : Bool
  obsY : Bool
  window : Option Nat
  gate : Option Nat
  startStamp : Word
  a : Word
  b : Word
  c : Word
  completion : Completion
  inbox : List EdgeEvent
  deriving DecidableEq, Repr

/-- An entry of the unit wait list (R133). -/
structure WaitEntry where
  station : StationId
  slot : SlotId
  arm : ArmSettings
  start : Word
  deriving DecidableEq, Repr

/-! ### Cohort Block (chapter 8) -/

/-- A member of an arrived set (R144). -/
structure Arrival where
  station : StationId
  channel : Option ChannelId
  delay : Nat
  width : Nat
  deriving DecidableEq, Repr

/-- A cohort (R144). The live set is kept in ascending order; `binding` none is the round binding NONE. -/
structure Cohort where
  live : List StationId
  arrived : List Arrival
  binding : Option Line
  ready : Bool
  generation : Half
  deriving DecidableEq, Repr

/-- The drive states of a sync line (R157). -/
inductive Drive
  | off
  | pull
  | open
  | hold
  deriving DecidableEq, Repr

/-- A sync line (R157 to R160). `others` is true when no other part pulls the line (an input); `riseDue` and `fallDue`
mark an accepted edge the Cohort Block has not yet taken (log entry 23). -/
structure SyncLine where
  drive : Drive
  hold : Option Nat
  others : Bool
  filter : Filter
  riseDue : Bool
  fallDue : Bool
  deriving DecidableEq, Repr

/-! ### Memory Link Engine (chapter 9) -/

/-- The requests of each requester (R165). -/
inductive ReqKind
  | sweepRead
  | fetch (n : StationId)
  | outcome (n : StationId)
  | partHalf (n : StationId)
  | noticeBlock
  | message
  deriving DecidableEq, Repr

/-- A request (R164). A read carries no bytes. -/
structure Request where
  kind : ReqKind
  addr : Addr
  length : Nat
  bytes : List Byte
  deriving DecidableEq, Repr

/-- What the engine tracks of a sent read (R170, R171), with its tag (log entry 11). -/
structure SentRead where
  tag : Nat
  timer : Nat
  got : List Byte
  deriving DecidableEq, Repr

/-- An entry of the request queue: unsent, or a sent read (R164). -/
structure Entry where
  req : Request
  sent : Option SentRead
  deriving DecidableEq, Repr

/-- The Memory Link Engine (R164, R166, R168). -/
structure Engine where
  queue : List Entry
  room : List Request
  held : Vector (Option (List Byte)) 24
  nextTag : Nat
  deriving DecidableEq, Repr

/-- One request put on the link; `tag` is that of a read (log entry 12). -/
structure Sent where
  req : Request
  tag : Option Nat
  deriving DecidableEq, Repr

/-! ### The part -/

/-- The whole part, with the queue of waiting commands. `sentLog` (what has been sent on the link, newest first) and
`choices` are the model's own (log entries 12 and 3). -/
structure State where
  time : TimeBase
  ctl : Control
  sweep : Sweep
  notice : Notice
  stations : Vector Station 24
  units : Vector MeasUnit 6
  waitList : List WaitEntry
  cohorts : Vector Cohort 8
  lineA : SyncLine
  lineB : SyncLine
  engine : Engine
  sentLog : List Sent
  choices : Nat
  pending : List Instr
  deriving DecidableEq, Repr

/-- The manual gives every command an effect in every state, so no meaning raises a fault. The type is empty. -/
inductive Fault
  deriving DecidableEq, Repr

/-- Why a command has no meaning in the model. -/
inductive Refusal
  /-- Raised by exec's arm of a command that has no meaning yet, naming its row. Safe: nothing is claimed of it. -/
  | notModelled (mnemonic : String)
  deriving DecidableEq, Repr

/-! ### After a cold reset -/

/-- The default settings (R46). -/
def Settings.default : Settings :=
  { divInt := 27, divFrac := 2, breakLen := 13, delimiter := 2, stopBits := 1, gapLimit := 16, short := false,
    attnMin := 5, sense0 := 10, sense1 := 10, polarity := 0, tripFilter := 100 }

/-- A station context after either reset (R4, R47, R53; log entry 6 for the latched entry fields). -/
def Context.initial : Context :=
  { state := .idle, halt := .none, taken := 0, retired := 0, lastRun := 0, lastRead := 0, stopSeen := 0, resumeSeen := 0,
    skipDebt := 0, badMark := false, base := 0, exp := 0, cohort := none, settings := Settings.default, deadline := none,
    step := none, posting := .none, backlog := none, pendingHalt := none, disabling := false }

/-- A Probe Link Controller after either reset (R62, R82, R85), the world outside doing `outside` to the line. -/
def Link.initial (outside : ProbeDrive) : Link :=
  { state := .idle,
    copy := { divInt := 27, divFrac := 2, breakLen := 13, delimiter := 2, stopBits := 1, gapLimit := 16, short := false },
    acc := 0, left := 0, sample := 0, votes := [], bits := [], mismatch := false, bitEnd := false, waiting := false,
    wait := none, inByte := false, rxBits := [], done := none, startDue := false, status := 0, len := 0, count := 0,
    buffer := [], latch := none, recog := none, attnCount := 0, faultCount := 0,
    mon := { high := decide (outside ≠ .low), age := 0, beganIn := .idle, attnMin := 5 }, outside := outside }

/-- A channel after either reset and after a lift (R86). -/
def Channel.initial : Channel :=
  { state := .idle, timer := none, pulse := .none, shadow := none, stamp := 0 }

/-- A filter that takes the raw level as its accepted level, with no candidate (R58). -/
def Filter.settled (raw : Bool) : Filter :=
  { raw := raw, accepted := raw, cand := none }

/-- A Seat and Supply block after a cold reset (R106, R119), with the raw levels found. -/
def Power.initial (rawSeat good trip : Bool) : Power :=
  { rawSeat := rawSeat, seated := false, evaluated := false, run := 0, runDir := none, supply := .off, tripCount := 0,
    seatCount := 0, good := Filter.settled good, trip := Filter.settled trip, loss := none, goodRise := false,
    tripRise := false }

/-- A station after a cold reset, its inputs at rest (log entry 5). -/
def Station.initial : Station :=
  { ctx := Context.initial, link := Link.initial .released, chans := Vector.replicate 4 Channel.initial,
    power := Power.initial false false false, sense0 := Filter.settled false, sense1 := Filter.settled false }

/-- A FREE unit (R120): settings and captures 0, and the observed levels low (log entry 6). -/
def MeasUnit.initial : MeasUnit :=
  { state := .free, binding := none,
    arm := { kind := .interval, start := .immediate, x := .probe, y := .probe, xEdge := .rising, yEdge := .rising,
             gating := .none, window := 0, gate := 0 },
    obsX := false, obsY := false, window := none, gate := none, startStamp := 0, a := 0, b := 0, c := 0,
    completion := .complete, inbox := [] }

/-- A cohort after either reset (R163). -/
def Cohort.initial : Cohort :=
  { live := [], arrived := [], binding := none, ready := false, generation := 0 }

/-- A sync line after either reset (R157, R163), the other parts pulling or not as `others` says. -/
def SyncLine.initial (others : Bool) : SyncLine :=
  { drive := .off, hold := none, others := others, filter := Filter.settled others, riseDue := false, fallDue := false }

/-- The Memory Link Engine after either reset (R164, R175). -/
def Engine.initial : Engine :=
  { queue := [], room := [], held := Vector.replicate 24 none, nextTag := 0 }

/-- The part right after a cold reset (R194), its inputs at rest (log entry 5) and no command waiting. -/
def State.reset : State :=
  { time := { clock := 0, prescale := 0, msDiv := 0, tickDue := false, firstPeriod := true },
    ctl := { state := .config, dest := .config, fault := .none, leaving := false, run := false, useA := false, useB := false,
             period := 1000, holdoff := 200, workLo := 0, workHi := 0, base := 0 },
    sweep := { timer := none, pending := false, inFlight := false },
    notice := { attention := 0, mask := 0, pending := false, writer := .idle, timer := none, count := 0, offered := false,
                awaitHeld := [] },
    stations := Vector.replicate 24 Station.initial,
    units := Vector.replicate 6 MeasUnit.initial,
    waitList := [],
    cohorts := Vector.replicate 8 Cohort.initial,
    lineA := SyncLine.initial true,
    lineB := SyncLine.initial true,
    engine := Engine.initial,
    sentLog := [],
    choices := 0,
    pending := [] }

end Sys2Proof.Machine
end

