-- ==== Sys2Proof/Machine/Operands.lean ====
section
/-! DEFINITION. The byte layouts of section 1.6: reading the host half and the request half, writing the part half, the
outcome half, the Notice Block, and the register words. All fields are little-endian (0.5). -/

namespace Sys2Proof.Machine

/-! ### Bytes -/

/-- Byte i of a run of bytes. -/
def byteAt (bs : List Byte) (i : Nat) : Byte := bs.getD i 0

/-- Byte i as a number. -/
def natAt (bs : List Byte) (i : Nat) : Nat := (byteAt bs i).toNat

/-- The little-endian number in `count` bytes from byte i on (0.5). -/
def leNat (bs : List Byte) (i : Nat) : Nat → Nat
  | 0 => 0
  | count + 1 => natAt bs i + 256 * leNat bs (i + 1) count

/-- The `count` little-endian bytes of a number (0.5). -/
def leBytes : Nat → Nat → List Byte
  | 0, _ => []
  | count + 1, x => BitVec.ofNat 8 x :: leBytes count (x / 256)

/-- A run of bytes cut or filled with zeros to `count` bytes. -/
def padTo (count : Nat) (bs : List Byte) : List Byte :=
  (List.range count).map (byteAt bs)

/-! ### The directory entry, host half -/

/-- The fields of a host half that a station reads (section 1.6, R10, R11). -/
structure HostHalf where
  base : Addr
  exp : Nat
  enabled : Bool
  cohort : Byte
  discard : Bool
  origin : Half
  handover : Half
  stop : Byte
  resume : Byte
  deriving DecidableEq, Repr

/-- Reading a host half: bit 0 alone of the mode and resume mode bytes counts (R11, R15), bytes 18 to 31 are ignored
(R18). -/
def hostHalfOf (bs : List Byte) : HostHalf :=
  { base := BitVec.ofNat 64 (leNat bs 0 8), exp := natAt bs 8, enabled := (byteAt bs 9).getLsbD 0, cohort := byteAt bs 10,
    discard := (byteAt bs 11).getLsbD 0, origin := BitVec.ofNat 16 (leNat bs 12 2),
    handover := BitVec.ofNat 16 (leNat bs 14 2), stop := byteAt bs 16, resume := byteAt bs 17 }

/-- The cohort a host half names: some none for 0xFF, some (some c) for 0..7, none when the byte fails its check (R11). -/
def cohortOf (b : Byte) : Option (Option CohortId) :=
  if b = 0xFF then some none
  else if h : b.toNat < 8 then some (some ⟨b.toNat, h⟩)
  else none

/-! ### Codes of the part half -/

def StationState.code : StationState → Nat
  | .idle => 0 | .ready => 1 | .fetching => 2 | .running => 3 | .waitingUnit => 4 | .atBarrier => 5 | .posting => 6
  | .halted => 7

def HaltReason.code : HaltReason → Nat
  | .none => 0 | .stepFailed => 1 | .stopRequest => 2 | .supplyTrip => 3 | .unseated => 4 | .memoryFault => 5
  | .stripMismatch => 6 | .badHandover => 7 | .badEntry => 8

def SupplyState.code : SupplyState → Nat
  | .off => 0 | .ramping => 1 | .on => 2 | .tripped => 3

def LinkState.code : LinkState → Nat
  | .idle => 0 | .break => 1 | .delimit => 2 | .send => 3 | .awaitAnswer => 4 | .receive => 5 | .recover => 6
  | .lineFault => 7

def PartState.code : PartState → Nat
  | .config => 0 | .active => 1 | .quiescing => 2 | .faulted => 3

def FaultCode.code : FaultCode → Nat
  | .none => 0 | .badBase => 1 | .sweepRead => 2

/-- The outcome code table of section 1.6. -/
def Code.value : Code → Nat
  | .ok => 0x00 | .badStep => 0x10 | .setupBusy => 0x11 | .noAnswer => 0x20 | .answerLead => 0x21 | .answerFrame => 0x22
  | .answerLength => 0x23 | .answerCheck => 0x24 | .gapTimeout => 0x25 | .bitError => 0x26 | .statusMismatch => 0x27
  | .lineStuck => 0x28 | .noAttention => 0x29 | .actuatorBusy => 0x30 | .releasePulseBusy => 0x31 | .notSeated => 0x38
  | .noSupplyGood => 0x39 | .noUnit => 0x40 | .slotBusy => 0x41 | .slotEmpty => 0x42 | .collectTimeout => 0x43
  | .noEdge => 0x44 | .barrierTimeout => 0x48 | .supplyTrip => 0x80 | .unseated => 0x81 | .stopped => 0xC0
  | .skipped => 0xC1 | .discarded => 0xC2 | .stripMismatch => 0xC3

/-- The outcome classes (section 1.6): FAIL is BAD_STEP to BARRIER_TIMEOUT, FAULT is SUPPLY_TRIP and UNSEATED (R29). -/
inductive CodeClass
  | ok
  | fail
  | fault
  | apart
  deriving DecidableEq, Repr

def Code.class : Code → CodeClass
  | .ok => .ok
  | .supplyTrip | .unseated => .fault
  | .stopped | .skipped | .discarded | .stripMismatch => .apart
  | .badStep | .setupBusy | .noAnswer | .answerLead | .answerFrame | .answerLength | .answerCheck | .gapTimeout | .bitError
  | .statusMismatch | .lineStuck | .noAttention | .actuatorBusy | .releasePulseBusy | .notSeated | .noSupplyGood | .noUnit
  | .slotBusy | .slotEmpty | .collectTimeout | .noEdge | .barrierTimeout => .fail

def MeasKind.code : MeasKind → Nat
  | .interval => 0 | .width => 1 | .frequency => 2 | .edges => 3

def Completion.code : Completion → Nat
  | .complete => 0 | .noStart => 1 | .noStop => 2

/-- The 32 bytes of a station's part half (section 1.6, R3), with the part clock given. -/
def partHalfBytes (x : Station) (clock : Word) : List Byte :=
  [BitVec.ofNat 8 x.ctx.state.code, BitVec.ofNat 8 x.ctx.halt.code] ++ leBytes 2 x.ctx.taken.toNat ++
    leBytes 2 x.ctx.retired.toNat ++ leBytes 2 x.ctx.lastRun.toNat ++ [x.ctx.stopSeen, x.ctx.resumeSeen,
    if x.power.seated then 1 else 0, BitVec.ofNat 8 x.power.supply.code, BitVec.ofNat 8 x.link.state.code,
    x.link.attnCount, x.link.faultCount, x.power.tripCount, x.power.seatCount, BitVec.ofNat 8 x.ctx.skipDebt] ++
    leBytes 2 x.ctx.lastRead.toNat ++ leBytes 4 clock.toNat ++ List.replicate 8 0

/-- The 32 bytes of an outcome half (section 1.6, R27): code, sequence echo, start and end time, 20 result bytes. -/
def outcomeBytes (code : Code) (seq : Half) (start finish : Word) (result : List Byte) : List Byte :=
  [BitVec.ofNat 8 code.value, 0] ++ leBytes 2 seq.toNat ++ leBytes 4 start.toNat ++ leBytes 4 finish.toNat ++
    padTo 20 result

/-- The four result bytes of a time stamp. -/
def stampBytes (w : Word) : List Byte := leBytes 4 w.toNat

/-! ### The step record, request half -/

/-- The control byte's disposition (section 1.6): none when the field fails its check (R24). -/
def dispositionOf (control : Byte) : Option Disposition :=
  match (control.toNat / 4) % 4 with
  | 0 => some .halt
  | 1 => some .continue
  | 2 => if control.toNat / 16 = 0 then none else some (.skip (control.toNat / 16))
  | _ => none

/-- A channel byte 0..3. -/
def channelOf (b : Byte) : Option ChannelId :=
  if h : b.toNat < 4 then some ⟨b.toNat, h⟩ else none

/-- A channel byte 0..3, or 0xFF (LIFT's all four, BARRIER's none). -/
def channelOrAll (b : Byte) : Option (Option ChannelId) :=
  if b = 0xFF then some none else (channelOf b).map some

/-- A slot byte 0..1. -/
def slotOf (b : Byte) : Option SlotId :=
  if h : b.toNat < 2 then some ⟨b.toNat, h⟩ else none

/-- The signal codes of ARM (section 1.6). -/
def signalOf : Nat → Option Signal
  | 0 => some .probe
  | 1 => some .sense0
  | 2 => some .sense1
  | 3 => some (.act 0)
  | 4 => some (.act 1)
  | 5 => some (.act 2)
  | 6 => some (.act 3)
  | 7 => some .supplyGood
  | 8 => some .seat
  | _ => none

def edgeOf : Nat → Option EdgeCode
  | 0 => some .rising
  | 1 => some .falling
  | 2 => some .both
  | _ => none

def kindOf : Nat → Option MeasKind
  | 0 => some .interval
  | 1 => some .width
  | 2 => some .frequency
  | 3 => some .edges
  | _ => none

def startOf : Nat → Option StartCond
  | 0 => some .immediate
  | 1 => some .edgeX
  | 2 => some .attention
  | 3 => some .release
  | _ => none

def gatingOf : Nat → Option Gating
  | 0 => some .none
  | 1 => some .whileHigh
  | 2 => some .whileLow
  | _ => none

/-- The line byte of BARRIER: some none for no line (section 1.6). -/
def barrierLineOf : Nat → Option (Option Line)
  | 0 => some none
  | 1 => some (some .a)
  | 2 => some (some .b)
  | _ => none

/-- The settings of a SETUP record, when every field lies in its range (R46, section 1.6). -/
def setupOf (bs : List Byte) : Option Settings :=
  let v : Settings :=
    { divInt := leNat bs 6 2, divFrac := natAt bs 8, breakLen := natAt bs 9, delimiter := natAt bs 10,
      stopBits := natAt bs 11, gapLimit := natAt bs 12, short := natAt bs 13 == 1, attnMin := natAt bs 14,
      sense0 := natAt bs 15, sense1 := natAt bs 16, polarity := BitVec.ofNat 4 (natAt bs 17), tripFilter := natAt bs 18 }
  if 3 ≤ v.divInt ∧ v.divInt ≤ 1023 ∧ v.divFrac ≤ 15 ∧ 10 ≤ v.breakLen ∧ v.breakLen ≤ 30 ∧ 1 ≤ v.delimiter ∧
      v.delimiter ≤ 4 ∧ 1 ≤ v.stopBits ∧ v.stopBits ≤ 2 ∧ 2 ≤ v.gapLimit ∧ v.gapLimit ≤ 64 ∧ natAt bs 13 ≤ 1 ∧
      1 ≤ v.attnMin ∧ v.attnMin ≤ 20 ∧ natAt bs 17 < 16 ∧ 1 ≤ v.tripFilter then some v
  else none

/-- The parameters of a QUERY record (4.3): tag 0..63, length 0..16, the first length bytes from byte 12 on. -/
def queryOf (bs : List Byte) : Option QuerySpec :=
  if natAt bs 7 ≤ 63 ∧ natAt bs 8 ≤ 16 then
    some { expectAnswer := (byteAt bs 6).getLsbD 0, rawCheck := (byteAt bs 6).getLsbD 1,
           expectStatus := (byteAt bs 6).getLsbD 2, tag := natAt bs 7,
           payload := (List.range (natAt bs 8)).map (fun i => byteAt bs (12 + i)), check := byteAt bs 9,
           status := byteAt bs 10 }
  else none

/-- The kind-specific checks of ARM (R124): WIDTH starts on EDGE_X with one edge, a FREQUENCY gate lies within the
window, RELEASE needs a cohort. -/
def armAllowed (a : ArmSettings) (hasCohort : Bool) : Bool :=
  (!(a.kind == .width) || (a.start == .edgeX && !(a.xEdge == .both))) &&
    (!(a.kind == .frequency) || decide (a.gate ≤ a.window * 1000)) && (!(a.start == .release) || hasCohort)

/-- The settings of an ARM record: every named byte in range (section 1.6) and the checks of R124. -/
def armOf (bs : List Byte) (hasCohort : Bool) : Option (SlotId × ArmSettings) := do
  let slot ← slotOf (byteAt bs 6)
  let kind ← kindOf (natAt bs 7)
  let start ← startOf (natAt bs 8)
  let x ← signalOf (natAt bs 9)
  let y ← signalOf (natAt bs 10)
  let xEdge ← edgeOf (natAt bs 11)
  let yEdge ← edgeOf (natAt bs 12)
  let gating ← gatingOf (natAt bs 13)
  let a : ArmSettings :=
    { kind := kind, start := start, x := x, y := y, xEdge := xEdge, yEdge := yEdge, gating := gating,
      window := leNat bs 14 2, gate := leNat bs 16 4 }
  if 1 ≤ a.window ∧ 100 ≤ a.gate ∧ a.gate ≤ 1000000 ∧ armAllowed a hasCohort = true then some (slot, a) else none

/-- The step of a request half, none when its kind or a parameter fails its check (R24). The checks a BARRIER needs of
its cohort are made when the Cohort Block takes it (R146, log entry 7). -/
def stepOf (bs : List Byte) (hasCohort : Bool) : Option StepOp :=
  match natAt bs 0 with
  | 0x01 => if 1 ≤ leNat bs 6 2 then some (.pause (leNat bs 6 2)) else none
  | 0x02 => some (.note ((List.range 8).map (fun i => byteAt bs (6 + i))))
  | 0x03 => (setupOf bs).map .setup
  | 0x10 => (queryOf bs).map .query
  | 0x11 => some (.awaitAttention ((byteAt bs 6).getLsbD 0))
  | 0x20 => (channelOf (byteAt bs 6)).bind fun c =>
      if 1 ≤ leNat bs 10 2 then some (.press c (leNat bs 8 2) (leNat bs 10 2)) else none
  | 0x21 => (channelOf (byteAt bs 6)).bind fun c =>
      if 2 ≤ leNat bs 8 2 ∧ 1 ≤ leNat bs 10 2 ∧ leNat bs 10 2 < leNat bs 8 2 then
        some (.tap c (leNat bs 8 2) (leNat bs 10 2) (leNat bs 12 2))
      else none
  | 0x22 => (channelOf (byteAt bs 6)).map .hold
  | 0x23 => (channelOrAll (byteAt bs 6)).map .lift
  | 0x30 => if natAt bs 6 ≤ 1 then some (.supply (natAt bs 6 == 1)) else none
  | 0x40 => (armOf bs hasCohort).map fun p => .arm p.1 p.2
  | 0x41 => (slotOf (byteAt bs 6)).map .collect
  | 0x50 => (barrierLineOf (natAt bs 6)).bind fun l => (channelOrAll (byteAt bs 7)).bind fun c =>
      if 1 ≤ leNat bs 10 2 then some (.barrier l c (leNat bs 8 2) (leNat bs 10 2)) else none
  | _ => none

/-- The default deadline of each kind that waits, in ms (R53). -/
def StepOp.defaultDeadline : StepOp → Nat
  | .query _ => 50
  | .awaitAttention _ => 30000
  | .supply _ => 500
  | .arm _ _ => 1000
  | .collect _ => 10000
  | .barrier _ _ _ _ => 60000
  | .pause _ | .note _ | .setup _ | .press _ _ _ | .tap _ _ _ _ | .hold _ | .lift _ | .invalid => 0

/-- The ticks a step's deadline timer is loaded with: n + 1, n being the field or, where it is 0, the default (R51, R53). -/
def InFlight.deadlineTicks (st : InFlight) : Nat :=
  (if st.deadline = 0 then st.op.defaultDeadline else st.deadline) + 1

/-! ### The probe frame (R65, R66) -/

/-- The TAG byte: the tag in bits 0 to 5, bit 6 = t0 + t2 + t3 + t5, bit 7 the inverse of t0 + t1 + t4, modulo 2 (R65). -/
def tagByte (tag : Nat) : Byte :=
  let t := BitVec.ofNat 6 tag
  let b6 := t.getLsbD 0 ^^ t.getLsbD 2 ^^ t.getLsbD 3 ^^ t.getLsbD 5
  let b7 := !(t.getLsbD 0 ^^ t.getLsbD 1 ^^ t.getLsbD 4)
  BitVec.ofNat 8 (t.toNat + (if b6 then 64 else 0) + (if b7 then 128 else 0))

/-- One addition of the running sum (R66). -/
def checkAdd (sum : Nat) (b : Byte) : Nat :=
  if 255 < sum + b.toNat then sum + b.toNat - 255 else sum + b.toNat

/-- The check byte over the covered bytes (R66). -/
def checkByte (covered : List Byte) : Byte :=
  BitVec.ofNat 8 (255 - covered.foldl checkAdd 0)

/-- The bytes of a query after its delimiter (R64, R66). -/
def queryFrame (q : QuerySpec) (short : Bool) : List Byte :=
  let head : List Byte := [tagByte q.tag, BitVec.ofNat 8 q.payload.length]
  let covered := if short then q.payload else head ++ q.payload
  [0x96] ++ head ++ q.payload ++ [if q.rawCheck then q.check else checkByte covered]

/-- The bits of a byte on the line: a start bit 0, eight data bits from the least significant on, the stop bits 1 (R61).
True is recessive. -/
def frameBits (stopBits : Nat) (b : Byte) : List Bool :=
  [false] ++ (List.range 8).map (fun i => b.getLsbD i) ++ List.replicate stopBits true

/-- The byte of the eight data bits received, the first being bit 0 (R61). -/
def byteOfBits (bits : List Bool) : Byte :=
  BitVec.ofNat 8 (bits.foldr (fun b acc => (if b then 1 else 0) + 2 * acc) 0)

/-! ### The Notice Block and the registers -/

/-- The 64 bytes of the Notice Block (section 1.6, R181). -/
def noticeBytes (count attention clock : Word) (st : PartState) (f : FaultCode) : List Byte :=
  leBytes 4 count.toNat ++ leBytes 4 attention.toNat ++ leBytes 4 clock.toNat ++
    [BitVec.ofNat 8 st.code, BitVec.ofNat 8 f.code] ++ List.replicate 50 0

/-- A register write with byte enables: a disabled byte carries `old`'s (R184). -/
def mergeBytes (be : BitVec 4) (new old : Word) : Word :=
  let m : Word := (if be.getLsbD 0 then 0xFF else 0) ||| (if be.getLsbD 1 then 0xFF00 else 0) |||
    (if be.getLsbD 2 then 0xFF0000 else 0) ||| (if be.getLsbD 3 then 0xFF000000 else 0)
  (new &&& m) ||| (old &&& ~~~m)

/-- The listed bits of ATTENTION and NOTICE_MASK: 0 to 23 and 31 (R177, R179). -/
abbrev attentionBits : Word := 0x80FFFFFF

end Sys2Proof.Machine
end

