-- ==== Sys2Proof/Machine/Flags.lean ====
section
/-! DEFINITION. The accessors of State, and the flags and views computed from it: the attention bits and the pending
flag, the register window, the pins, the engine state. -/

namespace Sys2Proof.Machine

/-! ### Accessors -/

/-- A station. -/
def State.st (s : State) (n : StationId) : Station := s.stations.get n

/-- Replace a station. -/
def State.setSt (s : State) (n : StationId) (x : Station) : State := { s with stations := s.stations.set n.1 x n.2 }

/-- A station's context. -/
abbrev State.ctx (s : State) (n : StationId) : Context := (s.st n).ctx

/-- Replace a station's context. -/
def State.setCtx (s : State) (n : StationId) (x : Context) : State := s.setSt n { s.st n with ctx := x }

/-- Replace a station's Probe Link Controller. -/
def State.setLink (s : State) (n : StationId) (x : Link) : State := s.setSt n { s.st n with link := x }

/-- Replace a station's Seat and Supply block. -/
def State.setPower (s : State) (n : StationId) (x : Power) : State := s.setSt n { s.st n with power := x }

/-- A station's actuator channel. -/
def State.chan (s : State) (n : StationId) (c : ChannelId) : Channel := (s.st n).chans.get c

/-- A measurement unit. -/
def State.unit (s : State) (u : UnitId) : MeasUnit := s.units.get u

/-- Replace a measurement unit. -/
def State.setUnit (s : State) (u : UnitId) (x : MeasUnit) : State := { s with units := s.units.set u.1 x u.2 }

/-- A cohort. -/
def State.cohort (s : State) (k : CohortId) : Cohort := s.cohorts.get k

/-- Replace a cohort. -/
def State.setCohort (s : State) (k : CohortId) (x : Cohort) : State := { s with cohorts := s.cohorts.set k.1 x k.2 }

/-- A sync line. -/
def State.line (s : State) : Line → SyncLine
  | .a => s.lineA
  | .b => s.lineB

/-- Replace a sync line. -/
def State.setLine (s : State) (l : Line) (x : SyncLine) : State :=
  match l with
  | .a => { s with lineA := x }
  | .b => { s with lineB := x }

/-- A time stamp: the low 32 bits of the part clock (R49). -/
def State.now (s : State) : Word := s.time.clock.setWidth 32

/-- Whether the part is ACTIVE. -/
abbrev State.active (s : State) : Bool := s.ctl.state == .active

/-! ### Attention bits and the pending flag (R177, R179) -/

/-- An event sets attention bit `i`. The pending flag is set when the bit is admitted and goes from clear to set (R179). -/
def setAttention (i : Nat) (s : State) : State :=
  if s.notice.attention.getLsbD i then s
  else { s with notice := { s.notice with
    attention := s.notice.attention ||| BitVec.twoPow 32 i,
    pending := s.notice.pending || s.notice.mask.getLsbD i } }

/-- A write to ATTENTION clears the bits written as 1; a disabled byte carries zeros (R178, R184). -/
def clearAttention (w : Word) (be : BitVec 4) (s : State) : State :=
  { s with notice := { s.notice with attention := s.notice.attention &&& ~~~(mergeBytes be w 0) } }

/-- A write to NOTICE_MASK: the listed bits are stored, and a bit newly admitted that is set sets the pending flag (R179). -/
def writeMask (w : Word) (be : BitVec 4) (s : State) : State :=
  let new := mergeBytes be w s.notice.mask &&& attentionBits
  { s with notice := { s.notice with
    mask := new,
    pending := s.notice.pending || (s.notice.attention &&& new &&& ~~~s.notice.mask != 0) } }

/-! ### The register window (R184, R185) -/

/-- CONTROL as read: SOFT_RESET reads 0 (R186). -/
def controlWord (c : Control) : Word :=
  BitVec.ofNat 32 ((if c.run then 1 else 0) + (if c.useA then 4 else 0) + (if c.useB then 8 else 0) + c.period.toNat * 65536)

/-- PART_STATUS as read (R185). -/
def statusWord (c : Control) : Word := BitVec.ofNat 32 (c.state.code + c.fault.code * 256)

/-- The value a read of register number `reg` (its offset divided by 4) returns. A read has no effect (R184) and is no
command (log entry 27). -/
def State.readRegister (s : State) (reg : Nat) : Word :=
  match reg with
  | 0 => 0x00010724
  | 1 => statusWord s.ctl
  | 2 => controlWord s.ctl
  | 3 => s.ctl.holdoff.setWidth 32
  | 4 => s.ctl.workLo
  | 5 => s.ctl.workHi
  | 7 => s.notice.attention
  | 8 => s.notice.mask
  | _ => 0

/-- WORK_BASE, the 64-bit value of the two registers (1.1). -/
def Control.workBase (c : Control) : Addr := c.workHi ++ c.workLo

/-- Whether CONTROL's use flag of a line is set. -/
def Control.useFlag (c : Control) : Line → Bool
  | .a => c.useA
  | .b => c.useB

/-! ### Pins -/

/-- Whether the controller drives PROBE low (R59). -/
def Link.drives (l : Link) : Bool :=
  match l.state with
  | .break => true
  | .send => l.bits.head? == some false
  | .delimit | .idle | .awaitAnswer | .receive | .recover | .lineFault => false

/-- The level on PROBE: low when either party drives it low (4.1), but for a line that will not go low (R67, log entry
35). -/
def Link.high (l : Link) : Bool :=
  match l.outside with
  | .low => false
  | .released => !l.drives
  | .high => true

/-- A channel's output is asserted in ASSERTED, HELD and TAP_ON (R87). -/
def Channel.output (c : Channel) : Bool :=
  match c.state with
  | .asserted | .held | .tapOn => true
  | .idle | .delay | .tapOff => false

/-- The level of the pin ACTc: high when asserted for an active-high channel, the reverse for an active-low one (R87). -/
def State.actPin (s : State) (n : StationId) (c : ChannelId) : Bool :=
  (s.chan n c).output != (s.ctx n).settings.polarity.getLsbD c.1

/-- The level of SUPPLY_EN (R108). -/
def State.supplyEnable (s : State) (n : StationId) : Bool :=
  match (s.st n).power.supply with
  | .ramping | .on => true
  | .off | .tripped => false

/-- The level of a sync line's pin: low while the part pulls (R157) or another part does. -/
def SyncLine.pin (x : SyncLine) : Bool := x.others && !(x.drive == .pull)

/-- The present level of a measurable signal (R122). -/
def State.signalLevel (s : State) (n : StationId) : Signal → Bool
  | .probe => (s.st n).link.high
  | .sense0 => (s.st n).sense0.accepted
  | .sense1 => (s.st n).sense1.accepted
  | .act c => (s.chan n c).output
  | .supplyGood => (s.st n).power.good.accepted
  | .seat => (s.st n).power.seated

/-! ### Counts and engine views -/

/-- The fetchable count (R6). -/
def Context.fetchable (x : Context) : Nat := (x.lastRead - x.taken).toNat

/-- The outstanding count (R6). -/
def Context.outstanding (x : Context) : Nat := (x.lastRead - x.retired).toNat

/-- The handover test (R16). -/
def Context.handoverPasses (x : Context) (h : Half) : Bool :=
  decide ((h - x.retired).toNat ≤ 2 ^ x.exp) && decide ((h - x.taken).toNat ≤ 2 ^ x.exp)

/-- The address of the record of sequence s (R5). -/
def Context.recordAddr (x : Context) (s : Half) : Addr :=
  x.base + BitVec.ofNat 64 (64 * (s.toNat % 2 ^ x.exp))

/-- The engine states (R164). -/
inductive EngineState
  | open
  | draining
  | closed
  deriving DecidableEq, Repr

/-- The engine state follows the part state (R164). -/
def PartState.engine : PartState → EngineState
  | .active => .open
  | .quiescing => .draining
  | .config | .faulted => .closed

/-- Whether a request is a read. -/
def ReqKind.isRead : ReqKind → Bool
  | .sweepRead | .fetch _ => true
  | .outcome _ | .partHalf _ | .noticeBlock | .message => false

/-- Whether a request is the Notice Block writer's. -/
def ReqKind.isWriter : ReqKind → Bool
  | .noticeBlock | .message => true
  | .sweepRead | .fetch _ | .outcome _ | .partHalf _ => false

/-- The requests the engine takes in each part state (R164): all in ACTIVE, no reads in QUIESCING, none in CONFIG, the
writer's alone in FAULTED. -/
def admits (p : PartState) (k : ReqKind) : Bool :=
  match p with
  | .active => true
  | .quiescing => !k.isRead
  | .config => false
  | .faulted => k.isWriter

/-- Whether an entry of this kind stands in the queue. -/
def Engine.inQueue (e : Engine) (k : ReqKind) : Bool := e.queue.any fun x => x.req.kind == k

/-- Whether a request of this kind waits for room. -/
def Engine.inRoom (e : Engine) (k : ReqKind) : Bool := e.room.any fun r => r.kind == k

/-- Whether a fetch read or an outcome write of the station has not left the queue: the limit of R165. -/
def Engine.ownBusy (e : Engine) (n : StationId) : Bool :=
  e.inQueue (.fetch n) || e.inQueue (.outcome n) || e.inRoom (.fetch n) || e.inRoom (.outcome n)

/-- Whether an outcome write of the station has been taken since its queued part-half write (R168). -/
def Engine.outcomeBehind (e : Engine) (n : StationId) : Bool :=
  (e.queue.dropWhile fun x => x.req.kind != .partHalf n).any fun x => x.req.kind == .outcome n

/-- The condition of a station's part-half write (R168). -/
inductive PartHalfCondition
  | none
  | waiting
  | queued
  | queuedHeld
  deriving DecidableEq, Repr

/-- The condition of a station's part-half write (R168), read from the queue, the room wait list and the held updates. -/
def Engine.partHalf (e : Engine) (n : StationId) : PartHalfCondition :=
  if e.inRoom (.partHalf n) then .waiting
  else if e.inQueue (.partHalf n) then (if (e.held.get n).isSome then .queuedHeld else .queued)
  else .none

/-- The drain is complete: queue and room wait list empty, nothing held, so no read is sent either (R173). -/
def Engine.drained (e : Engine) : Bool :=
  e.queue.isEmpty && e.room.isEmpty && (List.finRange 24).all fun n => (e.held.get n).isNone

end Sys2Proof.Machine
end

