-- ==== Sys2Proof/Machine/Ops.lean ====
section
/-! DEFINITION. The operations every block shares: offering a request to the Memory Link Engine and taking it, the
part-half write, the Notice Block writer's send, the station's own requests, the end of a step, an edge of a signal,
and the input filter. -/

namespace Sys2Proof.Machine

/-! ### The request queue (R164, R166) -/

/-- A request enters the queue at its tail. A part-half write that is taken is no longer awaited by the writer (R181). -/
def take (r : Request) (s : State) : State :=
  { s with
    engine := { s.engine with queue := s.engine.queue ++ [{ req := r, sent := none }] },
    notice := { s.notice with
      awaitHeld := match r.kind with
        | .partHalf n => s.notice.awaitHeld.filter (· != n)
        | .sweepRead | .fetch _ | .outcome _ | .noticeBlock | .message => s.notice.awaitHeld } }

/-- A request is offered: taken at once when the engine state allows it, the queue has room and none waits; otherwise it
joins the room wait list (R166). One the engine state does not allow is not taken (R173, R174). -/
def offer (r : Request) (s : State) : State :=
  if admits s.ctl.state r.kind then
    if s.engine.queue.length < Config.queueRoom ∧ s.engine.room = [] then take r s
    else { s with engine := { s.engine with room := s.engine.room ++ [r] } }
  else s

/-- An entry has left the queue: the head of the room wait list is taken into it (R166). -/
def refill (s : State) : State :=
  match s.engine.room with
  | [] => s
  | r :: rest =>
    if s.engine.queue.length < Config.queueRoom then take r { s with engine := { s.engine with room := rest } } else s

/-- Several entries have left the queue: the room wait list refills all of them, in its order (R166, R173). -/
def refillAll (s : State) : State := (List.range Config.queueRoom).foldl (fun t _ => refill t) s

/-! ### The part-half write (R3, R168) -/

/-- The part-half write of a station as it stands now (R3). -/
def partHalfRequest (s : State) (n : StationId) : Request :=
  { kind := .partHalf n, addr := s.ctl.base + BitVec.ofNat 64 (64 * n.1 + 32), length := 32,
    bytes := partHalfBytes (s.st n) s.now }

/-- Replace the bytes of the station's waiting or queued part-half write, in its place (R168). -/
def replaceBytes (n : StationId) (bytes : List Byte) (r : Request) : Request :=
  if r.kind = .partHalf n then { r with bytes := bytes } else r

/-- The station queues a part-half write: it is offered, merged or held as R168 states. Outside ACTIVE and QUIESCING no
write is queued (R3). -/
def queuePartHalf (n : StationId) (s : State) : State :=
  if s.ctl.state = .active ∨ s.ctl.state = .quiescing then
    let r := partHalfRequest s n
    if s.engine.inRoom (.partHalf n) then
      { s with engine := { s.engine with room := s.engine.room.map (replaceBytes n r.bytes) } }
    else if s.engine.inQueue (.partHalf n) then
      if s.engine.outcomeBehind n then
        { s with engine := { s.engine with held := s.engine.held.set n.1 (some r.bytes) n.2 } }
      else
        { s with engine := { s.engine with
          queue := s.engine.queue.map fun e => { e with req := replaceBytes n r.bytes e.req } } }
    else offer r s
  else s

/-- The station's part-half write has been sent: an update held behind it is offered as a new one (R168). -/
def offerHeld (n : StationId) (s : State) : State :=
  match s.engine.held.get n with
  | none => s
  | some bytes =>
    offer { partHalfRequest s n with bytes := bytes }
      { s with engine := { s.engine with held := s.engine.held.set n.1 none n.2 } }

/-! ### The Notice Block writer (R180, R181) -/

/-- Whether the writer may begin a send in this part state (R180, R193). -/
def sendAllowed (c : Control) : Bool :=
  match c.state with
  | .active | .quiescing => true
  | .faulted => !c.leaving
  | .config => false

/-- A send begins when the pending flag is set, the writer is IDLE and the part state allows it (R180): the block is
composed, the flag cleared, the count raised, and the block's write offered (R181). Every event that may meet the
condition ends with this, after its part-half updates (log entry 10). -/
def noticeKick (s : State) : State :=
  if s.notice.pending = true ∧ s.notice.writer = .idle ∧ sendAllowed s.ctl = true then
    let count := s.notice.count + 1
    offer { kind := .noticeBlock, addr := s.ctl.base + 0x600, length := 64,
            bytes := noticeBytes count s.notice.attention s.now s.ctl.state s.ctl.fault }
      { s with notice := { s.notice with
        count := count, pending := false, writer := .sending, offered := false,
        awaitHeld := (List.finRange 24).filter fun n => (s.engine.held.get n).isSome } }
  else s

/-! ### A station's own requests (R165) -/

/-- The request a station offers for the record of sequence `retired`: the fetch read of its request half or the write
of its outcome half (R5, R21, R22, R27, R35). A DISCARDED outcome is made when its write is offered (log entry 14). -/
def stationRequest (s : State) (n : StationId) : Backlog → Request
  | .fetch =>
    { kind := .fetch n, addr := (s.ctx n).recordAddr (s.ctx n).retired, length := 32, bytes := [] }
  | .outcome bytes =>
    { kind := .outcome n, addr := (s.ctx n).recordAddr (s.ctx n).retired + 32, length := 32, bytes := bytes }
  | .discarded =>
    { kind := .outcome n, addr := (s.ctx n).recordAddr (s.ctx n).retired + 32, length := 32,
      bytes := outcomeBytes .discarded (s.ctx n).retired s.now s.now [] }

/-- A station offers its fetch read or outcome write, or keeps it until its earlier one has left the queue (R165). -/
def stationOffer (n : StationId) (b : Backlog) (s : State) : State :=
  if s.engine.ownBusy n then s.setCtx n { s.ctx n with backlog := some b }
  else offer (stationRequest s n b) (s.setCtx n { s.ctx n with backlog := none })

/-- Whether the outcome write of a station in POSTING has entered the queue (R28, R21, R22, R35). -/
def State.postingTaken (s : State) (n : StationId) : Bool :=
  (s.ctx n).backlog.isNone && !s.engine.inRoom (.outcome n)

/-! ### The step in flight -/

/-- The step a station has dispatched and its owning block has not yet taken (R25, log entry 7). -/
def State.handedStep (s : State) (n : StationId) : Option InFlight :=
  match (s.ctx n).state, (s.ctx n).step with
  | .running, some st => if st.handed then some st else none
  | _, _ => none

/-- The step of a station its owning block has taken and not yet ended (R25). -/
def State.flyingStep (s : State) (n : StationId) : Option InFlight :=
  match (s.ctx n).state, (s.ctx n).step with
  | .running, some st => if st.handed then none else some st
  | .waitingUnit, some st => if st.handed then none else some st
  | .atBarrier, some st => if st.handed then none else some st
  | _, _ => none

/-- The owning block takes the step. -/
def markTaken (n : StationId) (st : InFlight) (s : State) : State :=
  s.setCtx n { s.ctx n with step := some { st with handed := false } }

/-- The owning block takes a step that waits: its deadline timer is loaded and started (R26, R53, log entry 32). -/
def markWaiting (n : StationId) (st : InFlight) (s : State) : State :=
  s.setCtx n { s.ctx n with step := some { st with handed := false }, deadline := some st.deadlineTicks }

/-- Whether the station's deadline timer has expired and its expiry is not yet taken (R55). -/
def State.expired (s : State) (n : StationId) : Bool := (s.ctx n).deadline == some 0

/-- The end of a step (R27): end time, last run, deadline timer stopped, POSTING, and the outcome write offered. With
no step in flight there is nothing to end (a later ending is discarded, R27). -/
def endStep (n : StationId) (code : Code) (result : List Byte) (s : State) : State :=
  match (s.ctx n).step with
  | none => s
  | some st =>
    stationOffer n (.outcome (outcomeBytes code (s.ctx n).retired st.start s.now result))
      (s.setCtx n { s.ctx n with
        state := .posting, lastRun := (s.ctx n).retired, deadline := none, step := none,
        posting := .ordinary code st.noticeFlag st.disp })

/-! ### Edges of signals (R122) -/

/-- Whether a unit's kind reads Y (R124). -/
def MeasUnit.readsY (u : MeasUnit) : Bool :=
  u.arm.kind == .interval || (u.arm.kind == .edges && !(u.arm.gating == .none))

/-- Whether an edge of the station's signal reaches the unit: it is bound to the station, ARMED or RUNNING, and reads
the signal (R120, R121, R122). -/
def MeasUnit.sees (u : MeasUnit) (n : StationId) (sig : Signal) : Bool :=
  ((u.binding.map Prod.fst) == some n) && (u.state == .armed || u.state == .running) &&
    (u.arm.x == sig || (u.readsY && u.arm.y == sig))

/-- An edge of a station's signal reaches every unit that reads it, stamped now (R122). -/
def emitEdge (n : StationId) (sig : Signal) (high : Bool) (s : State) : State :=
  { s with units := s.units.map fun u =>
    if u.sees n sig then { u with inbox := u.inbox ++ [{ signal := sig, high := high, stamp := s.now }] } else u }

/-! ### Input filters and timers (R51, R52, R56) -/

/-- The candidate a raw level leaves (R56): one that has lasted its time stays to be accepted whatever the level does (log
entry 43), a younger one is dropped by the accepted level, and the opposite level begins one that has to last `periods`. -/
def Filter.candidate (f : Filter) (level : Bool) (periods : Nat) : Option Nat :=
  match f.cand with
  | some 0 => some 0
  | some (k + 1) => if level = f.accepted then none else some (k + 1)
  | none => if level = f.accepted then none else some periods

/-- The raw level of a filter's input is `level`; a candidate that begins has to last `periods` REFCLK periods
(R56, log entry 30). -/
def Filter.input (f : Filter) (level : Bool) (periods : Nat) : Filter :=
  { f with raw := level, cand := f.candidate level periods }

/-- A filter's input is `level` now: in the first REFCLK period after a reset it is taken as the accepted level with no
candidate and no edge (R58, log entry 24), later as R56 states. -/
def State.sense (s : State) (f : Filter) (level : Bool) (periods : Nat) : Filter :=
  if s.time.firstPeriod then Filter.settled level else f.input level periods

/-- The candidate is accepted (R56); a raw level that has returned meanwhile is the opposite of the new accepted level
and begins a candidate of its own (log entry 43). -/
def Filter.accept (f : Filter) (periods : Nat) : Filter :=
  { f with accepted := !f.accepted, cand := if f.raw = f.accepted then some periods else none }

/-- A timer takes one tick or one REFCLK period; some 0 is an expiry not yet taken. -/
def tickDown (t : Option Nat) : Option Nat := t.map (· - 1)

/-- A filter takes one REFCLK period. -/
def Filter.period (f : Filter) : Filter := { f with cand := tickDown f.cand }

/-- A duration in microseconds as REFCLK periods (R52). -/
def micros (n : Nat) : Nat := n * Config.periodsPerMicro

end Sys2Proof.Machine
end

