-- ==== Sys2Proof/Machine/Actuator.lean ====
section
/-! DEFINITION. Actuator channels (chapter 5): the channel operations, and the meanings of PRESS, TAP, HOLD, LIFT,
DELAY_END, PRESS_WIDTH_END, TAP_ON_END and PERIOD_BOUNDARY. -/

namespace Sys2Proof.Machine

/-! ### The channel -/

/-- Replace a channel with no edge. -/
def State.putChan (s : State) (n : StationId) (c : ChannelId) (x : Channel) : State :=
  s.setSt n { s.st n with chans := (s.st n).chans.set c.1 x c.2 }

/-- A channel changes to `x`: when its output is asserted the part clock is its assertion stamp (5.1), and a change of
the output is an edge of its signal (R57, R87). -/
def setChan (n : StationId) (c : ChannelId) (x : Channel) (s : State) : State :=
  let old := s.chan n c
  let new : Channel := if !old.output && x.output then { x with stamp := s.now } else x
  let t := s.putChan n c new
  if old.output = x.output then t else emitEdge n (.act c) x.output t

/-- A channel is lifted: IDLE with the values of R86, the output deasserted if it was asserted (R98). -/
def liftChan (n : StationId) (c : ChannelId) (s : State) : State := setChan n c Channel.initial s

/-- All four channels of a station are lifted at the same moment (R98, R102, R103); their edges reach a unit in ascending
channel number (log entry 39). -/
def liftAll (n : StationId) (s : State) : State := (List.finRange 4).foldl (fun t c => liftChan n c t) s

/-- A press taken by an IDLE channel (R90): DELAY when the delay is 1 or more, else ASSERTED at once. Started by an
event between ticks, the first phase has the extra tick (R88). -/
def startPress (n : StationId) (c : ChannelId) (delay width : Nat) (attached : Bool) (s : State) : State :=
  setChan n c
    { s.chan n c with
      state := if delay = 0 then .asserted else .delay,
      timer := some ((if delay = 0 then width else delay) + 1),
      pulse := .press width attached, shadow := none } s

/-- The number of periods still to begin after the first of a count (R93): none for endless. -/
def periodsLeft (count : Nat) : Option Nat := if count = 0 then none else some (count - 1)

/-! ### Steps -/

/-- PRESS (R89, R90, R91): an IDLE channel takes it; a detached one ends at once, its result the assertion stamp when
the delay is 0; any other channel state is ACTUATOR_BUSY. -/
def pressStep (n : StationId) (st : InFlight) (c : ChannelId) (delay width : Nat) (s : State) : State :=
  match (s.chan n c).state with
  | .idle =>
    let t := startPress n c delay width st.attached (markTaken n st s)
    if st.attached then t
    else endStep n .ok (if delay = 0 then stampBytes s.now else []) t
  | .delay | .asserted | .held | .tapOn | .tapOff => endStep n .actuatorBusy [] s

/-- PRESS: the station's dispatched PRESS is taken by its channel. -/
def execPress (n : StationId) (s : State) : Host.Outcome State Fault Refusal :=
  match s.handedStep n with
  | some st => match st.op with
    | .press c delay width => .next (pressStep n st c delay width s)
    | _ => .next s
  | none => .next s

/-- TAP (R93, R95): an IDLE channel begins its first period; a tapping one loads its shadow; DELAY, ASSERTED and HELD are
ACTUATOR_BUSY. -/
def tapStep (n : StationId) (c : ChannelId) (period width count : Nat) (s : State) : State :=
  match (s.chan n c).state with
  | .idle =>
    endStep n .ok [] (setChan n c
      { s.chan n c with
        state := .tapOn, timer := some (width + 1), pulse := .tap period width (periodsLeft count), shadow := none } s)
  | .tapOn | .tapOff =>
    endStep n .ok [] (s.putChan n c { s.chan n c with shadow := some { period := period, width := width, count := count } })
  | .delay | .asserted | .held => endStep n .actuatorBusy [] s

/-- TAP: the station's dispatched TAP is taken by its channel. -/
def execTap (n : StationId) (s : State) : Host.Outcome State Fault Refusal :=
  match s.handedStep n with
  | some st => match st.op with
    | .tap c period width count => .next (tapStep n c period width count s)
    | _ => .next s
  | none => .next s

/-- HOLD (R97): IDLE, TAP_ON and TAP_OFF go to HELD, HELD is left as it is, DELAY and ASSERTED are ACTUATOR_BUSY. -/
def holdStep (n : StationId) (c : ChannelId) (s : State) : State :=
  match (s.chan n c).state with
  | .idle | .tapOn | .tapOff =>
    endStep n .ok [] (setChan n c { s.chan n c with state := .held, timer := none, pulse := .none, shadow := none } s)
  | .held => endStep n .ok [] s
  | .delay | .asserted => endStep n .actuatorBusy [] s

/-- HOLD: the station's dispatched HOLD is taken by its channel. -/
def execHold (n : StationId) (s : State) : Host.Outcome State Fault Refusal :=
  match s.handedStep n with
  | some st => match st.op with
    | .hold c => .next (holdStep n c s)
    | _ => .next s
  | none => .next s

/-- LIFT (R98): one channel or all four, whatever their states; the step always ends OK. -/
def liftStep (n : StationId) (c : Option ChannelId) (s : State) : State :=
  endStep n .ok [] (match c with
    | some c => liftChan n c s
    | none => liftAll n s)

/-- LIFT: the station's dispatched LIFT is taken by its channels. -/
def execLift (n : StationId) (s : State) : Host.Outcome State Fault Refusal :=
  match s.handedStep n with
  | some st => match st.op with
    | .lift c => .next (liftStep n c s)
    | _ => .next s
  | none => .next s

/-! ### Phase ends -/

/-- The phase timer of the channel has expired in this state. -/
def phaseEnds (s : State) (n : StationId) (c : ChannelId) (st : ChannelState) : Bool :=
  (s.chan n c).state == st && (s.chan n c).timer == some 0

/-- A delay ends (R90): ASSERTED for exactly the width. -/
def delayEnd (n : StationId) (c : ChannelId) (s : State) : State :=
  match (s.chan n c).pulse with
  | .press width _ => setChan n c { s.chan n c with state := .asserted, timer := some width } s
  | .tap _ _ _ | .none => setChan n c { s.chan n c with state := .asserted, timer := some 0 } s

/-- DELAY_END (R90). -/
def execDelayEnd (n : StationId) (c : ChannelId) (s : State) : Host.Outcome State Fault Refusal :=
  .next (if phaseEnds s n c .delay then delayEnd n c s else s)

/-- Whether an attached PRESS of the station's channel is in flight. -/
def attachedPress (s : State) (n : StationId) (c : ChannelId) : Bool :=
  match s.flyingStep n with
  | some st => match st.op with
    | .press d _ _ => d == c
    | _ => false
  | none => false

/-- A press's width ends (R91): IDLE, with the values of R86 (log entry 20); an attached PRESS ends OK with its two stamps. -/
def pressWidthEnd (n : StationId) (c : ChannelId) (s : State) : State :=
  let t := setChan n c Channel.initial s
  match (s.chan n c).pulse with
  | .press _ true =>
    if attachedPress s n c then endStep n .ok (stampBytes (s.chan n c).stamp ++ stampBytes s.now) t else t
  | .press _ false | .tap _ _ _ | .none => t

/-- PRESS_WIDTH_END (R91). -/
def execPressWidthEnd (n : StationId) (c : ChannelId) (s : State) : Host.Outcome State Fault Refusal :=
  .next (if phaseEnds s n c .asserted then pressWidthEnd n c s else s)

/-- The TAP_ON phase ends (R94): TAP_OFF for exactly period − width. -/
def tapOnEnd (n : StationId) (c : ChannelId) (s : State) : State :=
  match (s.chan n c).pulse with
  | .tap period width _ => setChan n c { s.chan n c with state := .tapOff, timer := some (period - width) } s
  | .press _ _ | .none => setChan n c { s.chan n c with state := .tapOff, timer := some 0 } s

/-- TAP_ON_END (R94). -/
def execTapOnEnd (n : StationId) (c : ChannelId) (s : State) : Host.Outcome State Fault Refusal :=
  .next (if phaseEnds s n c .tapOn then tapOnEnd n c s else s)

/-- The channel after a period boundary (R94, R96): the shadow is taken, or a further period begins, or the tap ends. -/
def Channel.boundary (x : Channel) : Channel :=
  match x.shadow, x.pulse with
  | some sh, _ =>
    { x with state := .tapOn, timer := some sh.width, pulse := .tap sh.period sh.width (periodsLeft sh.count), shadow := none }
  | none, .tap period width none => { x with state := .tapOn, timer := some width, pulse := .tap period width none }
  | none, .tap period width (some (k + 1)) =>
    { x with state := .tapOn, timer := some width, pulse := .tap period width (some k) }
  | none, .tap _ _ (some 0) | none, .press _ _ | none, .none =>
    Channel.initial

/-- PERIOD_BOUNDARY (R94, R96). -/
def execPeriodBoundary (n : StationId) (c : ChannelId) (s : State) : Host.Outcome State Fault Refusal :=
  .next (if phaseEnds s n c .tapOff then setChan n c (s.chan n c).boundary s else s)

end Sys2Proof.Machine
end

