-- ==== Sys2Proof/Machine/Pool.lean ====
section
/-! DEFINITION. The Measurement Unit Pool (chapter 7): binding, freeing, the arbiter, the start and the end of a
measurement, and the meanings of ARM, COLLECT, MEASURED_EDGE, WINDOW_EXPIRY, GATE_END, NO_UNIT and COLLECT_TIMEOUT. -/

namespace Sys2Proof.Machine

/-! ### Binding and freeing -/

/-- The unit a slot holds: the slot holds a unit exactly while the unit is bound to it (R121). -/
def State.slotUnit (s : State) (n : StationId) (slot : SlotId) : Option UnitId :=
  (List.finRange 6).find? fun u => (s.unit u).binding == some (n, slot)

/-- The lowest-numbered FREE unit (R132). -/
def State.freeUnit (s : State) : Option UnitId := (List.finRange 6).find? fun u => (s.unit u).state == .free

/-- A unit starts (R125): RUNNING with its start stamp. A FREQUENCY stops its window and opens its gate (R129). -/
def MeasUnit.begin (u : MeasUnit) (stamp : Word) : MeasUnit :=
  { u with
    state := .running, startStamp := stamp,
    window := if u.arm.kind = .frequency then none else u.window,
    gate := if u.arm.kind = .frequency then some (micros u.arm.gate) else none }

/-- The unit freshly bound to a slot (R123, R126, R132): ARMED, its observed levels sampled, its window started between
ticks. -/
def boundUnit (s : State) (n : StationId) (slot : SlotId) (arm : ArmSettings) : MeasUnit :=
  { MeasUnit.initial with
    state := .armed, binding := some (n, slot), arm := arm, obsX := s.signalLevel n arm.x, obsY := s.signalLevel n arm.y,
    window := some (arm.window + 1) }

/-- A unit is bound to a slot; under IMMEDIATE it starts at once (R125, R132). -/
def bindUnit (u : UnitId) (n : StationId) (slot : SlotId) (arm : ArmSettings) (s : State) : State :=
  s.setUnit u (if arm.start = .immediate then (boundUnit s n slot arm).begin s.now else boundUnit s n slot arm)

/-- The result bytes of an ARM: the unit and the wait time (section 1.6, R132, R134). -/
def armResult (u : UnitId) (wait : Word) : List Byte := [BitVec.ofNat 8 u.1, 0, 0, 0] ++ stampBytes wait

/-- A grant (R134): the unit is bound to the entry's slot, and the ARM ends OK with its wait time. -/
def grantUnit (u : UnitId) (e : WaitEntry) (s : State) : State :=
  endStep e.station .ok (armResult u (s.now - e.start)) (bindUnit u e.station e.slot e.arm s)

/-- The arbiter looks at one unit (R134): a FREE one, in ACTIVE, goes to the head of the unit wait list. -/
def arbitrateUnit (s : State) (u : UnitId) : State :=
  if s.active = true ∧ (s.unit u).state = .free then
    match s.waitList with
    | [] => s
    | e :: rest => grantUnit u e { s with waitList := rest }
  else s

/-- The arbiter, in ascending unit number (R137). -/
def arbitrate (s : State) : State := (List.finRange 6).foldl arbitrateUnit s

/-- A unit returns to FREE: it drops its binding, captures and settings (R120). -/
def freeOneUnit (u : UnitId) (s : State) : State := s.setUnit u MeasUnit.initial

/-- Every unit of a station is abandoned and freed, and its entry leaves the unit wait list (R141, R142). -/
def abandonUnits (n : StationId) (s : State) : State :=
  { s with
    units := s.units.map fun u => if u.binding.map Prod.fst = some n then MeasUnit.initial else u,
    waitList := s.waitList.filter fun e => e.station != n }

/-- A start event reaches the station's units that are ARMED with that condition (R125). -/
def startUnits (n : StationId) (cond : StartCond) (stamp : Word) (s : State) : State :=
  { s with units := s.units.map fun u =>
    if u.binding.map Prod.fst = some n ∧ u.state = .armed ∧ u.arm.start = cond then u.begin stamp else u }

/-! ### The end of a measurement and COLLECT -/

/-- The station whose COLLECT waits for the unit (R138). -/
def State.collector (s : State) (u : UnitId) : Option StationId :=
  match (s.unit u).binding with
  | none => none
  | some (n, slot) =>
    match s.flyingStep n with
    | some st => if st.op = .collect slot then some n else none
    | none => none

/-- The result bytes of a COLLECT (R139). -/
def collectResult (u : UnitId) (x : MeasUnit) : List Byte :=
  stampBytes x.a ++ stampBytes x.b ++ stampBytes x.c ++
    [BitVec.ofNat 8 u.1, BitVec.ofNat 8 x.arm.kind.code, BitVec.ofNat 8 x.completion.code]

/-- The outcome of a COLLECT (R139). -/
def collectCode (x : MeasUnit) : Code :=
  match x.completion with
  | .complete => .ok
  | .noStart | .noStop => .noEdge

/-- A COLLECT ends with its unit's result; the unit returns to FREE and goes through the arbiter (R139), after the
COLLECT's own outcome write has been offered (log entry 44). -/
def collectUnit (n : StationId) (u : UnitId) (s : State) : State :=
  arbitrate (endStep n (collectCode (s.unit u)) (collectResult u (s.unit u)) (freeOneUnit u s))

/-- A unit enters DONE with a completion code: its timers stop, edges are ignored from now on (R126, R131), and a
COLLECT that waits for it ends (R139). -/
def unitDone (u : UnitId) (completion : Completion) (x : MeasUnit) (s : State) : State :=
  let t := s.setUnit u { x with state := .done, window := none, gate := none, inbox := [], completion := completion }
  match t.collector u with
  | some n => collectUnit n u t
  | none => t

/-! ### Steps -/

/-- ARM (R132, R133): SLOT_BUSY, or bound at once to the lowest-numbered FREE unit, or joining the unit wait list with
the deadline timer counting. -/
def armStep (n : StationId) (st : InFlight) (slot : SlotId) (arm : ArmSettings) (s : State) : State :=
  if (s.slotUnit n slot).isSome then endStep n .slotBusy [] s
  else match s.freeUnit with
    | some u => endStep n .ok (armResult u 0) (bindUnit u n slot arm s)
    | none =>
      let t := markWaiting n st s
      { t.setCtx n { t.ctx n with state := .waitingUnit } with
        waitList := s.waitList ++ [{ station := n, slot := slot, arm := arm, start := st.start }] }

/-- ARM: the station's dispatched ARM is taken by the pool. -/
def execArm (n : StationId) (s : State) : Host.Outcome State Fault Refusal :=
  match s.handedStep n with
  | some st => match st.op with
    | .arm slot arm => .next (armStep n st slot arm s)
    | _ => .next s
  | none => .next s

/-- COLLECT (R138): SLOT_EMPTY, or at once the result of a DONE unit, or waiting for the unit. -/
def collectStep (n : StationId) (st : InFlight) (slot : SlotId) (s : State) : State :=
  match s.slotUnit n slot with
  | none => endStep n .slotEmpty [] s
  | some u => if (s.unit u).state = .done then collectUnit n u s else markWaiting n st s

/-- COLLECT: the station's dispatched COLLECT is taken by the pool. -/
def execCollect (n : StationId) (s : State) : Host.Outcome State Fault Refusal :=
  match s.handedStep n with
  | some st => match st.op with
    | .collect slot => .next (collectStep n st slot s)
    | _ => .next s
  | none => .next s

/-! ### Edges -/

/-- Whether an edge to `high` matches an edge code (section 1.6). -/
def EdgeCode.matches (c : EdgeCode) (high : Bool) : Bool :=
  match c with
  | .rising => high
  | .falling => !high
  | .both => true

/-- Whether an edge of X counts: X has been observed at the level before it (R123). -/
def MeasUnit.countsX (u : MeasUnit) (e : EdgeEvent) : Bool := u.arm.x == e.signal && u.obsX != e.high

/-- Whether an edge of Y counts (R123, R127). -/
def MeasUnit.countsY (u : MeasUnit) (e : EdgeEvent) : Bool := u.arm.y == e.signal && u.obsY != e.high

/-- The unit has observed the edge (R123). -/
def MeasUnit.observe (u : MeasUnit) (e : EdgeEvent) : MeasUnit :=
  { u with
    obsX := if u.arm.x = e.signal then e.high else u.obsX,
    obsY := if u.arm.y = e.signal then e.high else u.obsY }

/-- Whether EDGES' gating admits an edge, judged on the level of Y as observed before the edge (R130). -/
def MeasUnit.gateAdmits (u : MeasUnit) : Bool :=
  match u.arm.gating with
  | .none => true
  | .whileHigh => u.obsY
  | .whileLow => !u.obsY

/-- A unit takes an edge (R125, R127 to R130); true says that the measurement has reached its completion. -/
def MeasUnit.edge (u : MeasUnit) (e : EdgeEvent) : MeasUnit × Bool :=
  let v := u.observe e
  match u.state with
  | .free | .done => (u, false)
  | .armed =>
    if u.arm.start = .edgeX ∧ u.countsX e = true ∧ u.arm.xEdge.matches e.high = true then (v.begin e.stamp, false)
    else (v, false)
  | .running =>
    match u.arm.kind with
    | .interval =>
      if u.countsY e = true ∧ u.arm.yEdge.matches e.high = true then
        ({ v with a := u.startStamp, b := e.stamp, c := e.stamp - u.startStamp }, true)
      else (v, false)
    | .width =>
      if u.countsX e = true ∧ u.arm.xEdge.matches e.high = false then
        ({ v with a := u.startStamp, b := e.stamp, c := e.stamp - u.startStamp }, true)
      else (v, false)
    | .frequency => (if u.countsX e = true ∧ e.high = true then { v with c := u.c + 1 } else v, false)
    | .edges =>
      (if u.countsX e = true ∧ u.arm.xEdge.matches e.high = true ∧ u.gateAdmits = true then
        { v with a := if u.c = 0 then e.stamp else u.a, b := e.stamp, c := u.c + 1 }
      else v, false)

/-- The unit takes the oldest edge that has reached it. -/
def measuredEdge (u : UnitId) (s : State) : State :=
  match (s.unit u).inbox with
  | [] => s
  | e :: rest =>
    let r := ({ s.unit u with inbox := rest } : MeasUnit).edge e
    if r.2 then unitDone u .complete r.1 s else s.setUnit u r.1

/-- MEASURED_EDGE (R123). -/
def execMeasuredEdge (u : UnitId) (s : State) : Host.Outcome State Fault Refusal := .next (measuredEdge u s)

/-! ### Window and gate -/

/-- The window of the unit has expired and the expiry is not yet taken. -/
def windowDue (s : State) (u : UnitId) : Bool := (s.unit u).window == some 0

/-- A window expiry (R126, R131): NO_START in ARMED; in RUNNING NO_STOP for INTERVAL and WIDTH, complete for EDGES. -/
def windowExpiry (u : UnitId) (s : State) : State :=
  let x := s.unit u
  match x.state with
  | .free | .done => s
  | .armed => unitDone u .noStart { x with a := 0, b := 0, c := 0 } s
  | .running =>
    match x.arm.kind with
    | .interval | .width => unitDone u .noStop { x with a := x.startStamp, b := 0, c := 0 } s
    | .edges => unitDone u .complete x s
    | .frequency => s

/-- WINDOW_EXPIRY (R126). -/
def execWindowExpiry (u : UnitId) (s : State) : Host.Outcome State Fault Refusal :=
  .next (if windowDue s u then windowExpiry u s else s)

/-- The gate of a RUNNING unit has ended and the end is not yet taken. -/
def gateDue (s : State) (u : UnitId) : Bool := (s.unit u).state == .running && (s.unit u).gate == some 0

/-- The gate of a FREQUENCY ends (R129): A the start stamp, B the gate length, C the count. -/
def gateEnd (u : UnitId) (s : State) : State :=
  unitDone u .complete { s.unit u with a := (s.unit u).startStamp, b := BitVec.ofNat 32 (s.unit u).arm.gate } s

/-- GATE_END (R129). -/
def execGateEnd (u : UnitId) (s : State) : Host.Outcome State Fault Refusal :=
  .next (if gateDue s u then gateEnd u s else s)

/-! ### Deadlines -/

/-- The deadline of a waiting ARM has expired (R135). -/
def noUnitDue (s : State) (n : StationId) : Bool := (s.ctx n).state == .waitingUnit && s.expired n

/-- NO_UNIT: the entry leaves the list, wherever it stands, and the ARM ends (R135). -/
def execNoUnit (n : StationId) (s : State) : Host.Outcome State Fault Refusal :=
  .next (if noUnitDue s n then
      endStep n .noUnit [] { s with waitList := s.waitList.filter fun e => e.station != n }
    else s)

/-- The slot a waiting COLLECT of the station waits on. -/
def State.collectSlot (s : State) (n : StationId) : Option SlotId :=
  match s.flyingStep n with
  | some st => match st.op with
    | .collect slot => some slot
    | _ => none
  | none => none

/-- The COLLECT of a station abandons its unit (R139, R140): the unit returns to FREE, the slot is emptied. -/
def abandonCollect (n : StationId) (slot : SlotId) (s : State) : State :=
  match s.slotUnit n slot with
  | some u => freeOneUnit u s
  | none => s

/-- The deadline of a waiting COLLECT has expired (R139). -/
def collectTimeoutDue (s : State) (n : StationId) : Bool := (s.collectSlot n).isSome && s.expired n

/-- COLLECT_TIMEOUT: the unit is abandoned and freed, and the step ends (R139); the arbiter runs after the step's own
outcome write has been offered (log entry 44). -/
def collectTimeout (n : StationId) (s : State) : State :=
  match s.collectSlot n with
  | some slot => arbitrate (endStep n .collectTimeout [] (abandonCollect n slot s))
  | none => s

/-- COLLECT_TIMEOUT (R139). -/
def execCollectTimeout (n : StationId) (s : State) : Host.Outcome State Fault Refusal :=
  .next (if collectTimeoutDue s n then collectTimeout n s else s)

end Sys2Proof.Machine
end

