-- ==== Sys2Proof/Machine/Cohort.lean ====
section
/-! DEFINITION. The Cohort Block (chapter 8): the sync lines, release, joining and leaving, and the meanings of BARRIER,
BARRIER_TIMEOUT, SYNC_RISE, SYNC_FALL and SYNC_HOLD_END. -/

namespace Sys2Proof.Machine

/-! ### The sync lines (R157, R158) -/

/-- A line enters a drive state: its pin changes and its filter sees the change (R157), also one that the same event or
another event of the same instant takes back (log entry 55); entering HOLD starts the 50 µs. -/
def setDrive (l : Line) (d : Drive) (s : State) : State :=
  let x : SyncLine := { s.line l with drive := d, hold := if d = .hold then some (micros Config.holdMicros) else none }
  s.setLine l { x with filter := s.sense x.filter x.pin (micros Config.syncMicros) }

/-- Whether a cohort has a round in progress bound to the line (R144, R158). -/
def Cohort.boundTo (x : Cohort) (l : Line) : Bool := !x.arrived.isEmpty && x.binding == some l

/-- The release condition of a line (R158). -/
def State.releaseCondition (s : State) (l : Line) : Bool :=
  (List.finRange 8).any (fun k => (s.cohort k).boundTo l) &&
    (List.finRange 8).all fun k => !(s.cohort k).boundTo l || (s.cohort k).ready

/-- The drive state follows the release condition and the accepted level (R158). OFF and HOLD do not follow (R160, R161). -/
def judgeLine (l : Line) (s : State) : State :=
  match (s.line l).drive with
  | .pull => if s.releaseCondition l ∧ (s.line l).filter.accepted = false then setDrive l .open s else s
  | .open => if s.releaseCondition l then s else setDrive l .pull s
  | .off | .hold => s

/-! ### Release (R150, R151) -/

/-- The result bytes of a released BARRIER (R150). -/
def releaseResult (generation : Half) (count : Nat) (time : Word) : List Byte :=
  leBytes 2 generation.toNat ++ [BitVec.ofNat 8 count, 0] ++ stampBytes time

/-- The release pulse request of an arrived station (R100): taken by an IDLE channel as a detached press, else refused. -/
def releasePulse (a : Arrival) (s : State) : State × Code :=
  match a.channel with
  | none => (s, .ok)
  | some c =>
    match (s.chan a.station c).state with
    | .idle => (startPress a.station c a.delay a.width false s, .ok)
    | .delay | .asserted | .held | .tapOn | .tapOff => (s, .releasePulseBusy)

/-- A release acts on one arrived station (R150): the edge of its own release pulse waits to be taken by its units, and the
RELEASE start comes first (log entry 40). -/
def releaseStation (generation : Half) (count : Nat) (s : State) (a : Arrival) : State :=
  let r := releasePulse a s
  endStep a.station r.2 (releaseResult generation count s.now) (startUnits a.station .release s.now r.1)

/-- A round is released (R150, R151). -/
def releaseRound (k : CohortId) (s : State) : State :=
  let x := s.cohort k
  let t := x.arrived.foldl (releaseStation x.generation x.arrived.length) s
  t.setCohort k
    { t.cohort k with arrived := [], binding := none, ready := false, generation := x.generation + 1 }

/-! ### The sets -/

/-- Whether the arrived set equals the live set (R148, R149). -/
def Cohort.complete (x : Cohort) : Bool :=
  (List.finRange 24).all fun n => x.live.contains n == x.arrived.any fun a => a.station == n

/-- A cohort's round is examined after a change of its sets (R144, R148, R149, R155), and both lines take the change
(R158). -/
def settleCohort (k : CohortId) (s : State) : State :=
  let x := s.cohort k
  judgeLine .b (judgeLine .a
    (if x.arrived = [] then s.setCohort k { x with binding := none, ready := false }
     else match x.binding with
       | none => if x.complete = true ∧ s.active = true then releaseRound k s else s
       | some _ => s.setCohort k { x with ready := x.complete }))

/-- A station joins its latched cohort's live set (R145, R156). -/
def joinLive (n : StationId) (s : State) : State :=
  match (s.ctx n).cohort with
  | none => s
  | some k =>
    settleCohort k (s.setCohort k { s.cohort k with
      live := (List.finRange 24).filter fun m => m == n || (s.cohort k).live.contains m })

/-- A cohort without a station in its arrived set. -/
def Cohort.dropArrived (x : Cohort) (n : StationId) : Cohort :=
  { x with arrived := x.arrived.filter fun a => a.station != n }

/-- A cohort without a station in either set. -/
def Cohort.dropLive (x : Cohort) (n : StationId) : Cohort :=
  { x.dropArrived n with live := x.live.filter (· != n) }

/-- Whether a station stands in one of the cohort's sets. -/
def Cohort.holds (x : Cohort) (n : StationId) : Bool := x.live.contains n || x.arrived.any fun a => a.station == n

/-- A station leaves its cohort's live set and arrived set (R155); out of both it does not reach the cohort. -/
def leaveLive (n : StationId) (s : State) : State :=
  match (s.ctx n).cohort with
  | none => s
  | some k =>
    if (s.cohort k).holds n then settleCohort k (s.setCohort k ((s.cohort k).dropLive n)) else s

/-- A station leaves its cohort's arrived set alone and stays live (R152, R154). -/
def leaveArrived (n : StationId) (s : State) : State :=
  match (s.ctx n).cohort with
  | none => s
  | some k =>
    if (s.cohort k).arrived.any (fun a => a.station == n) then
      settleCohort k (s.setCohort k ((s.cohort k).dropArrived n))
    else s

/-! ### BARRIER -/

/-- Whether a BARRIER's line suits the part and the cohort's round (R146). -/
def barrierAllowed (s : State) (k : CohortId) (line : Option Line) : Bool :=
  (match line with
    | none => true
    | some l => s.ctl.useFlag l) && ((s.cohort k).arrived.isEmpty || (s.cohort k).binding == line)

/-- The cohort with one more arrival, which begins and binds a round when it is the first (R147). -/
def Cohort.arrive (x : Cohort) (a : Arrival) (line : Option Line) : Cohort :=
  { x with
    arrived := x.arrived ++ [a],
    binding := if x.arrived = [] then line else x.binding }

/-- The station stands at the barrier of cohort `k`, the deadline counting (R147). -/
def standAt (n : StationId) (st : InFlight) (k : CohortId) (line : Option Line) (a : Arrival) (s : State) : State :=
  let t := markWaiting n st s
  (t.setCtx n { t.ctx n with state := .atBarrier }).setCohort k ((s.cohort k).arrive a line)

/-- BARRIER (R146, R147): refused with BAD_STEP, or arriving at once. -/
def barrierStep (n : StationId) (st : InFlight) (line : Option Line) (channel : Option ChannelId) (delay width : Nat)
    (s : State) : State :=
  match (s.ctx n).cohort with
  | none => endStep n .badStep [] s
  | some k =>
    if barrierAllowed s k line then
      settleCohort k (standAt n st k line { station := n, channel := channel, delay := delay, width := width } s)
    else endStep n .badStep [] s

/-- BARRIER: the station's dispatched BARRIER is taken by the Cohort Block. -/
def execBarrier (n : StationId) (s : State) : Host.Outcome State Fault Refusal :=
  match s.handedStep n with
  | some st => match st.op with
    | .barrier line channel delay width => .next (barrierStep n st line channel delay width s)
    | _ => .next s
  | none => .next s

/-- The deadline of a BARRIER at the barrier has expired (R152). -/
def barrierTimeoutDue (s : State) (n : StationId) : Bool := (s.ctx n).state == .atBarrier && s.expired n

/-- BARRIER_TIMEOUT (R152): the station leaves the arrived set and its step ends. -/
def execBarrierTimeout (n : StationId) (s : State) : Host.Outcome State Fault Refusal :=
  .next (if barrierTimeoutDue s n then endStep n .barrierTimeout [] (leaveArrived n s) else s)

/-! ### The lines' own events -/

/-- The cohorts a rise of the line releases (R159). -/
def State.readyRounds (s : State) (l : Line) : List CohortId :=
  (List.finRange 8).filter fun k => (s.cohort k).boundTo l && (s.cohort k).ready

/-- A line enters HOLD at a release, unless it is OFF (R159). -/
def holdLine (l : Line) (s : State) : State := if (s.line l).drive = .off then s else setDrive l .hold s

/-- An accepted rise is taken (R159): every ready round bound to the line is released, in ACTIVE (R151), in ascending
cohort number (log entry 41). -/
def syncRise (l : Line) (s : State) : State :=
  let t := s.setLine l { s.line l with riseDue := false }
  if t.active = true ∧ t.readyRounds l ≠ [] then (t.readyRounds l).foldl (fun u k => releaseRound k u) (holdLine l t)
  else t

/-- SYNC_RISE (R159). -/
def execSyncRise (l : Line) (s : State) : Host.Outcome State Fault Refusal :=
  .next (if (s.line l).riseDue then syncRise l s else s)

/-- SYNC_FALL: a line in PULL whose release condition holds is released now (R158); HOLD and OPEN stay (R158, R160). -/
def execSyncFall (l : Line) (s : State) : Host.Outcome State Fault Refusal :=
  .next (if (s.line l).fallDue then judgeLine l (s.setLine l { s.line l with fallDue := false }) else s)

/-- The hold of a line has ended and the end is not yet taken (R160). -/
def syncHoldDue (s : State) (l : Line) : Bool := (s.line l).drive == .hold && (s.line l).hold == some 0

/-- SYNC_HOLD_END (R160): PULL, and the release condition is judged; a pull that the judging ends in the same event has reached
the filter (log entry 55). -/
def execSyncHoldEnd (l : Line) (s : State) : Host.Outcome State Fault Refusal :=
  .next (if syncHoldDue s l then judgeLine l (setDrive l .pull s) else s)

end Sys2Proof.Machine
end

