-- ==== Sys2Proof/Machine/Link.lean ====
section
/-! DEFINITION. The Probe Link Controllers (chapter 4): the bit timer, the line monitor, the query, the answer, recovery,
the stuck line and attention, with the meanings of their commands. -/

namespace Sys2Proof.Machine

/-! ### The bit timer (R60, R61) -/

/-- The next sample interval begins: the fraction is added and the interval lasts I or I + 1 periods (R60). -/
def Link.nextInterval (l : Link) : Link :=
  if 16 ≤ l.acc + l.copy.divFrac then { l with acc := l.acc + l.copy.divFrac - 16, left := l.copy.divInt + 1 }
  else { l with acc := l.acc + l.copy.divFrac, left := l.copy.divInt }

/-- A bit's value: the majority of its three votes (R61). -/
def majority (votes : List Bool) : Bool := decide (2 ≤ votes.count true)

/-- The votes after sample `k`: samples 3, 4 and 5 are kept (R61). -/
def Link.vote (l : Link) (k : Nat) : List Bool := if 3 ≤ k ∧ k ≤ 5 then l.votes ++ [l.high] else l.votes

/-- A bit begins: sample 0, with its first interval. -/
def Link.beginBit (l : Link) : Link := ({ l with sample := 0, votes := [] } : Link).nextInterval

/-- A sample interval of a bit being sent ends (R61, R67): the readback is judged at sample 5, and at the bit's end the
next bit begins, or the phase or the mismatched bit has ended. -/
def Link.sendInterval (l : Link) : Link :=
  if l.sample + 1 = 8 then
    if l.mismatch ∨ l.bits.length ≤ 1 then { l with bitEnd := true }
    else ({ l with bits := l.bits.tail } : Link).beginBit
  else
    let votes := l.vote (l.sample + 1)
    ({ l with
      sample := l.sample + 1, votes := votes,
      mismatch := l.mismatch || (l.sample + 1 == 5 && l.bits.head? != some (majority votes)) } : Link).nextInterval

/-- A sample interval of a byte being received ends (R61, R70). At sample 5 of the last stop bit the byte is complete, and
the gap count begins with the three intervals to the bit's nominal end (R71). -/
def Link.receiveInterval (l : Link) : Link :=
  if l.sample + 1 = 8 then l.beginBit
  else
    let votes := l.vote (l.sample + 1)
    let m := ({ l with sample := l.sample + 1, votes := votes } : Link).nextInterval
    if l.sample + 1 = 5 then
      let bits := l.rxBits ++ [majority votes]
      if bits.length = 9 + l.copy.stopBits then
        { m with inByte := false, rxBits := [], done := some bits, wait := some (3 + 8 * l.copy.gapLimit) }
      else { m with rxBits := bits }
    else m

/-- A sample interval of a gap or of the RECOVER wait ends (R71, R75). -/
def Link.waitInterval (l : Link) : Link := ({ l with wait := tickDown l.wait } : Link).nextInterval

/-- Whether the bit timer runs. -/
def Link.timing (l : Link) : Bool :=
  match l.state with
  | .break | .delimit | .send => !l.bitEnd
  | .receive => l.inByte || (l.wait.isSome && l.wait != some 0)
  | .recover => l.wait.isSome && l.wait != some 0
  | .idle | .awaitAnswer | .lineFault => false

/-- The end of a sample interval. -/
def Link.interval (l : Link) : Link :=
  match l.state with
  | .break | .delimit | .send => l.sendInterval
  | .receive => if l.inByte then l.receiveInterval else l.waitInterval
  | .idle | .awaitAnswer | .recover | .lineFault => l.waitInterval

/-- One REFCLK period of the line monitor (R77) and the bit timer. -/
def Link.period (l : Link) : Link :=
  let m : Link := { l with mon := { l.mon with age := l.mon.age + 1 } }
  if m.timing then (if m.left ≤ 1 then m.interval else { m with left := m.left - 1 }) else m

/-! ### Level changes on PROBE (R69, R70, R75, R77, R80) -/

/-- The RECOVER wait begins from zero (R75, log entry 21). -/
def Link.beginWait (l : Link) : Link := ({ l with wait := some (8 * l.copy.gapLimit) } : Link).nextInterval

/-- A falling edge begins a byte: it is sample 0 of the start bit (R61), the accumulator is 0 (R60). -/
def Link.beginByte (l : Link) : Link :=
  ({ l with inByte := true, rxBits := [], acc := 0, wait := none } : Link).beginBit

/-- Whether the dominant level that now ends is an attention pulse (R80, log entry 19). -/
def Monitor.pulse (m : Monitor) : Bool :=
  m.beganIn == .idle && decide (m.attnMin * 25000 ≤ m.age) && decide (m.age ≤ Config.stuckPeriods)

/-- The controller sees the line at its present level: a change begins a new level (R77) and acts by link state. A falling
edge taken while a RECOVER wait or the 1 ms of a stuck line is complete and not yet taken discards it (log entry 45), and one
taken before QUERY_SENT, at the instant the CHECK byte ends, is seen in SEND and begins no answer (log entry 54). One taken
before the ANSWER_BYTE of a complete answer, or before the QUERY_SENT of a query without one, has not found the link IDLE, so
its level is no attention pulse (log entry 56). -/
def Link.look (l : Link) (attnMin : Nat) (stamp : Word) : Link :=
  if l.high = l.mon.high then l
  else
    let m : Link := { l with mon := { high := l.high, age := 0, beganIn := l.state, attnMin := attnMin } }
    match l.state, l.high with
    | .idle, true => if l.mon.pulse then { m with recog := some stamp } else m
    | .recover, true => m.beginWait
    | .recover, false => { m with wait := none }
    | .awaitAnswer, false => { m with startDue := true }
    | .receive, false => if l.inByte then m else m.beginByte
    | _, _ => m

/-- A station's link becomes `l`, and its line is looked at: a change of level is an edge of PROBE (R57, R59). -/
def putLink (n : StationId) (l : Link) (s : State) : State :=
  let t := s.setLink n (l.look (s.ctx n).settings.attnMin s.now)
  if l.high = l.mon.high then t else emitEdge n .probe l.high t

/-- One REFCLK period of a station's link. -/
def linkTick (s : State) (n : StationId) : State := putLink n (s.st n).link.period s

/-! ### Link states -/

/-- The link with its bit timer and receiver at rest. -/
def Link.atRest (l : Link) (st : LinkState) : Link :=
  { l with
    state := st, bits := [], votes := [], sample := 0, mismatch := false, bitEnd := false, wait := none, inByte := false,
    rxBits := [], done := none, startDue := false }

/-- The wait of a link that entered RECOVER with the line recessive begins at the entry (R75). -/
def Link.restFromEntry (l : Link) : Link := if l.high = true ∧ l.wait = none then l.beginWait else l

/-- The link enters RECOVER: the line is released, the accumulator is 0 (R60, R75). -/
def enterRecover (n : StationId) (s : State) : State :=
  let t := putLink n { (s.st n).link.atRest .recover with acc := 0 } s
  t.setLink n (t.st n).link.restFromEntry

/-- The link enters IDLE. -/
def linkIdle (n : StationId) (s : State) : State := putLink n ((s.st n).link.atRest .idle) s

/-- The settings a frame uses (R64). -/
def Settings.linkCopy (v : Settings) : LinkCopy :=
  { divInt := v.divInt, divFrac := v.divFrac, breakLen := v.breakLen, delimiter := v.delimiter, stopBits := v.stopBits,
    gapLimit := v.gapLimit, short := v.short }

/-- A phase of bits to send begins. -/
def Link.beginPhase (l : Link) (st : LinkState) (bits : List Bool) : Link :=
  ({ l with state := st, bits := bits, mismatch := false, bitEnd := false } : Link).beginBit

/-- The break begins (R60, R64). -/
def beginBreak (n : StationId) (s : State) : State :=
  let v := (s.ctx n).settings
  putLink n
    (({ (s.st n).link with copy := v.linkCopy, acc := 0, waiting := false } : Link).beginPhase .break
      (List.replicate v.breakLen false)) s

/-! ### Results (R74) -/

/-- The result of a QUERY that received no answer byte. -/
def emptyResult (index : Nat) : List Byte := [0, 0, 0, BitVec.ofNat 8 index]

/-- The result of a QUERY with the answer as received so far. -/
def answerResult (l : Link) (index : Nat) : List Byte :=
  [l.status, l.len, BitVec.ofNat 8 l.count, BitVec.ofNat 8 index] ++ l.buffer

/-- The parameters of the QUERY the station's controller has taken. -/
def State.flyingQuery (s : State) (n : StationId) : Option QuerySpec :=
  match s.flyingStep n with
  | some st => match st.op with
    | .query q => some q
    | _ => none
  | none => none

/-! ### QUERY -/

/-- QUERY (R63). -/
def queryStep (n : StationId) (st : InFlight) (s : State) : State :=
  let l := (s.st n).link
  match l.state with
  | .lineFault => endStep n .lineStuck (emptyResult 0xFF) s
  | .idle =>
    if l.high then beginBreak n (markTaken n st s) else (markTaken n st s).setLink n { l with waiting := true }
  | .recover | .break | .delimit | .send | .awaitAnswer | .receive =>
    (markTaken n st s).setLink n { l with waiting := true }

/-- QUERY: the station's dispatched QUERY is taken by its controller. -/
def execQuery (n : StationId) (s : State) : Host.Outcome State Fault Refusal :=
  match s.handedStep n with
  | some st => match st.op with
    | .query _ => .next (queryStep n st s)
    | _ => .next s
  | none => .next s

/-- A waiting QUERY may begin its break: IDLE, the line recessive, and no recognition to be taken first (R63). A falling edge
taken at that instant before BREAK_BEGIN keeps it waiting in IDLE, and its level has begun in IDLE (log entry 57). -/
def breakBeginDue (s : State) (n : StationId) : Bool :=
  let l := (s.st n).link
  l.waiting && l.state == .idle && l.high && l.recog.isNone

/-- BREAK_BEGIN (R63, R64). -/
def execBreakBegin (n : StationId) (s : State) : Host.Outcome State Fault Refusal :=
  .next (if breakBeginDue s n then beginBreak n s else s)

/-- The last bit of a phase has ended with the readback good. -/
def phaseDue (s : State) (n : StationId) (st : LinkState) : Bool :=
  let l := (s.st n).link
  l.state == st && l.bitEnd && !l.mismatch

/-- BREAK_END (R64): DELIMIT, the line released. -/
def execBreakEnd (n : StationId) (s : State) : Host.Outcome State Fault Refusal :=
  .next (if phaseDue s n .break then
      putLink n ((s.st n).link.beginPhase .delimit (List.replicate (s.st n).link.copy.delimiter true)) s
    else s)

/-- The bits of a query from its LEAD byte on (R61, R64). -/
def queryBits (q : QuerySpec) (c : LinkCopy) : List Bool := (queryFrame q c.short).flatMap (frameBits c.stopBits)

/-- The delimiter ends: SEND begins with the start bit of LEAD (R64). -/
def delimiterEnd (n : StationId) (s : State) : State :=
  match s.flyingQuery n with
  | some q => putLink n ((s.st n).link.beginPhase .send (queryBits q (s.st n).link.copy)) s
  | none => enterRecover n s

/-- DELIMITER_END (R64). -/
def execDelimiterEnd (n : StationId) (s : State) : Host.Outcome State Fault Refusal :=
  .next (if phaseDue s n .delimit then delimiterEnd n s else s)

/-- A mismatched bit has ended (R67). -/
def bitErrorDue (s : State) (n : StationId) : Bool :=
  let l := (s.st n).link
  (l.state == .break || l.state == .delimit || l.state == .send) && l.bitEnd && l.mismatch

/-- BIT_ERROR (R67). -/
def execBitError (n : StationId) (s : State) : Host.Outcome State Fault Refusal :=
  .next (if bitErrorDue s n then endStep n .bitError (emptyResult 0xFF) (enterRecover n s) else s)

/-- The receive buffer emptied on entry into AWAIT_ANSWER (R68, R74). -/
def Link.emptied (l : Link) : Link := { l with status := 0, len := 0, count := 0, buffer := [] }

/-- The query is sent (R68): it ends OK with the link IDLE, or the answer is awaited with the deadline started (R54). -/
def querySent (n : StationId) (s : State) : State :=
  match s.flyingQuery n, (s.ctx n).step with
  | some q, some st =>
    if q.expectAnswer then
      putLink n ((s.st n).link.emptied.atRest .awaitAnswer) (markWaiting n st s)
    else endStep n .ok (emptyResult 0xFF) (linkIdle n s)
  | _, _ => linkIdle n s

/-- QUERY_SENT (R68). -/
def execQuerySent (n : StationId) (s : State) : Host.Outcome State Fault Refusal :=
  .next (if phaseDue s n .send then querySent n s else s)

/-! ### The answer -/

/-- A falling edge in AWAIT_ANSWER is to be taken (R69). -/
def answerStartDue (s : State) (n : StationId) : Bool := (s.st n).link.state == .awaitAnswer && (s.st n).link.startDue

/-- The answer begins: RECEIVE with the start bit of byte 0, the deadline timer stopped (R69). -/
def answerStart (n : StationId) (s : State) : State :=
  (s.setCtx n { s.ctx n with deadline := none }).setLink n
    { (s.st n).link with state := .receive, startDue := false }.beginByte

/-- ANSWER_START (R69). -/
def execAnswerStart (n : StationId) (s : State) : Host.Outcome State Fault Refusal :=
  .next (if answerStartDue s n then answerStart n s else s)

/-- Whether a received byte has a framing error: a start bit of 1 or a stop bit of 0 (R70). -/
def badFrame (bits : List Bool) : Bool := bits.head? != some false || (bits.drop 9).any (! ·)

/-- The check byte the answer must carry (R66). -/
def answerCheck (l : Link) : Byte :=
  checkByte (if l.copy.short then l.buffer else [l.status, l.len] ++ l.buffer)

/-- What a byte of the answer leads to (R70, R72, R73). -/
inductive AnswerStep
  /-- Reception goes on. -/
  | more
  /-- The first error, with the index of the byte it was found in. -/
  | error (code : Code) (index : Nat)
  /-- The answer is complete. -/
  | complete
  deriving DecidableEq, Repr

/-- The content of the byte at position `l.count` is judged (R72); the link returned has received it. -/
def judgeByte (l : Link) (b : Byte) : Link × AnswerStep :=
  let i := l.count
  let m : Link := { l with count := i + 1 }
  if i = 0 then (m, if b = 0x69 then .more else .error .answerLead 0)
  else if i = 1 then ({ m with status := b }, .more)
  else if i = 2 then ({ m with len := b }, if b.toNat ≤ 16 then .more else .error .answerLength 2)
  else if i < 3 + l.len.toNat then ({ m with buffer := l.buffer ++ [b] }, .more)
  else (m, if b = answerCheck l then .complete else .error .answerCheck i)

/-- Reception ends with an error: RECOVER, and the step ends (R70, R71, R72). -/
def answerError (n : StationId) (code : Code) (index : Nat) (l : Link) (s : State) : State :=
  endStep n code (answerResult l index) (enterRecover n (s.setLink n l))

/-- Whether the received STATUS fails the query's expect status (R73). -/
def QuerySpec.statusFails (q : QuerySpec) (l : Link) : Bool := q.expectStatus && l.status != q.status

/-- The code of a complete answer (R73). -/
def completeCode (q : Option QuerySpec) (l : Link) : Code :=
  if q.any (·.statusFails l) then .statusMismatch else .ok

/-- A received byte is judged: framing first, then content (R70, R72); a complete answer ends the step with the link
IDLE (R73). -/
def answerByte (n : StationId) (bits : List Bool) (s : State) : State :=
  let l : Link := { (s.st n).link with done := none }
  if badFrame bits then answerError n .answerFrame l.count l s
  else
    let r := judgeByte l (byteOfBits ((bits.drop 1).take 8))
    match r.2 with
    | .more => s.setLink n r.1
    | .error code index => answerError n code index r.1 s
    | .complete =>
      endStep n (completeCode (s.flyingQuery n) r.1) (answerResult r.1 0xFF) (linkIdle n (s.setLink n r.1))

/-- The bits of a received byte that is to be judged. -/
def answerByteDue (s : State) (n : StationId) : Option (List Bool) :=
  if (s.st n).link.state = .receive then (s.st n).link.done else none

/-- ANSWER_BYTE (R70, R72, R73). -/
def execAnswerByte (n : StationId) (s : State) : Host.Outcome State Fault Refusal :=
  match answerByteDue s n with
  | some bits => .next (answerByte n bits s)
  | none => .next s

/-- The gap limit has been reached with no falling edge taken (R71). -/
def gapTimeoutDue (s : State) (n : StationId) : Bool :=
  let l := (s.st n).link
  l.state == .receive && !l.inByte && l.done.isNone && l.wait == some 0

/-- GAP_TIMEOUT (R71). -/
def execGapTimeout (n : StationId) (s : State) : Host.Outcome State Fault Refusal :=
  .next (if gapTimeoutDue s n then answerError n .gapTimeout (s.st n).link.count (s.st n).link s else s)

/-- The deadline has expired in AWAIT_ANSWER (R69). -/
def noAnswerDue (s : State) (n : StationId) : Bool := (s.st n).link.state == .awaitAnswer && s.expired n

/-- NO_ANSWER (R69). -/
def execNoAnswer (n : StationId) (s : State) : Host.Outcome State Fault Refusal :=
  .next (if noAnswerDue s n then endStep n .noAnswer (emptyResult 0) (enterRecover n s) else s)

/-- The line has rested for the gap limit (R75), and no falling edge has been taken before this end (log entry 45). -/
def recoverEndDue (s : State) (n : StationId) : Bool :=
  (s.st n).link.state == .recover && (s.st n).link.wait == some 0

/-- RECOVER_END (R75). -/
def execRecoverEnd (n : StationId) (s : State) : Host.Outcome State Fault Refusal :=
  .next (if recoverEndDue s n then linkIdle n s else s)

/-! ### A QUERY ended from outside (R76) -/

/-- The result of a QUERY ended from outside: the answer as received so far (R74, R76). -/
def cutResult (l : Link) : List Byte :=
  match l.state with
  | .awaitAnswer | .receive => answerResult l 0xFF
  | .idle | .break | .delimit | .send | .recover | .lineFault => emptyResult 0xFF

/-- The link's part of ending a QUERY from outside (R76). -/
def cutLink (n : StationId) (s : State) : State :=
  match (s.st n).link.state with
  | .break | .delimit | .send | .awaitAnswer | .receive => enterRecover n s
  | .idle | .recover | .lineFault => s.setLink n { (s.st n).link with waiting := false }

/-! ### The line -/

/-- PROBE_EDGE (R77): the handset drives the line or leaves it, or the line is held high (R67), and the controller looks
at the line. -/
def execProbeEdge (n : StationId) (outside : ProbeDrive) (s : State) : Host.Outcome State Fault Refusal :=
  .next (putLink n { (s.st n).link with outside := outside } s)

/-- A dominant level has lasted 25 ms outside LINE_FAULT (R78). A rising edge taken before this entry ends the level in
RECOVER too (log entry 59). -/
def lineFaultEntryDue (s : State) (n : StationId) : Bool :=
  let l := (s.st n).link
  !l.mon.high && decide (Config.stuckPeriods ≤ l.mon.age) && l.state != .lineFault

/-- The link enters LINE_FAULT (R78): the transmitter is released, the count raised, a QUERY in flight ends; the part-half write
of the raised count is offered before the QUERY's outcome write (log entry 51). -/
def lineFaultEntry (n : StationId) (s : State) : State :=
  let l := (s.st n).link
  let t := queuePartHalf n
    (putLink n { l.atRest .lineFault with waiting := false, faultCount := l.faultCount + 1 } s)
  if (s.flyingQuery n).isSome then endStep n .lineStuck (emptyResult 0xFF) t else t

/-- LINE_FAULT_ENTRY (R78). -/
def execLineFaultEntry (n : StationId) (s : State) : Host.Outcome State Fault Refusal :=
  .next (if lineFaultEntryDue s n then lineFaultEntry n s else s)

/-- The line has been recessive for 1 ms in LINE_FAULT (R79), and no falling edge has been taken before this end (log entry
45). -/
def lineFaultEndDue (s : State) (n : StationId) : Bool :=
  let l := (s.st n).link
  l.state == .lineFault && l.mon.high && decide (Config.faultRestPeriods ≤ l.mon.age)

/-- LINE_FAULT_END (R79). -/
def execLineFaultEnd (n : StationId) (s : State) : Host.Outcome State Fault Refusal :=
  .next (if lineFaultEndDue s n then linkIdle n s else s)

/-! ### Attention (R81 to R84) -/

/-- AWAIT_ATTENTION (R83, R84): a latch found set is consumed; else, or with fresh, the step waits with a clear latch. -/
def awaitAttentionStep (n : StationId) (st : InFlight) (fresh : Bool) (s : State) : State :=
  let t := s.setLink n { (s.st n).link with latch := none }
  match (s.st n).link.latch, fresh with
  | some stamp, false => endStep n .ok (stampBytes stamp) t
  | _, _ => markWaiting n st t

/-- AWAIT_ATTENTION: the station's dispatched AWAIT_ATTENTION is taken by its controller. -/
def execAwaitAttention (n : StationId) (s : State) : Host.Outcome State Fault Refusal :=
  match s.handedStep n with
  | some st => match st.op with
    | .awaitAttention fresh => .next (awaitAttentionStep n st fresh s)
    | _ => .next s
  | none => .next s

/-- Whether an AWAIT_ATTENTION of the station waits. -/
def State.awaitsAttention (s : State) (n : StationId) : Bool :=
  match s.flyingStep n with
  | some st => match st.op with
    | .awaitAttention _ => true
    | _ => false
  | none => false

/-- An attention pulse is recognised (R81): the part-half write of the raised count is offered before the outcome write of a step
it ends (log entry 53). -/
def recognise (n : StationId) (stamp : Word) (s : State) : State :=
  let l := (s.st n).link
  let waits := s.awaitsAttention n
  let t := startUnits n .attention stamp
    (queuePartHalf n
      (s.setLink n { l with
        recog := none, attnCount := l.attnCount + 1,
        latch := if waits then none else some (l.latch.getD stamp) }))
  if waits then endStep n .ok (stampBytes stamp) t else t

/-- ATTENTION_RECOGNITION (R80, R81). -/
def execAttentionRecognition (n : StationId) (s : State) : Host.Outcome State Fault Refusal :=
  match (s.st n).link.recog with
  | some stamp => .next (recognise n stamp s)
  | none => .next s

/-- The deadline of a waiting AWAIT_ATTENTION has expired (R83). -/
def noAttentionDue (s : State) (n : StationId) : Bool := s.awaitsAttention n && s.expired n

/-- NO_ATTENTION (R83). -/
def execNoAttention (n : StationId) (s : State) : Host.Outcome State Fault Refusal :=
  .next (if noAttentionDue s n then endStep n .noAttention [] s else s)

end Sys2Proof.Machine
end

