-- ==== Sys2Proof/Machine/Station.lean ====
section
/-! DEFINITION. The Station Sequencer (chapters 1 and 2): halting, aborts, fetch and skip, dispatch, posting, resume and the
observation, with the meanings of PAUSE, NOTE, SETUP, PAUSE_EXPIRY, RETIREMENT and DISCARDED. -/

namespace Sys2Proof.Machine

/-! ### The supply state (R108) -/

/-- The supply of a station enters a state: a change queues a part-half write (R108), and the loss-of-supply-good filter
runs in ON alone, with a candidate at once when the raw level is low (R114). -/
def setSupply (n : StationId) (x : SupplyState) (s : State) : State :=
  let p := (s.st n).power
  if p.supply = x then s
  else queuePartHalf n (s.setPower n { p with
    supply := x,
    loss := if x = .on ∧ p.good.raw = false then some (micros (10 * (s.ctx n).settings.tripFilter)) else none,
    goodRise := false,
    tripRise := p.tripRise && x == .on })

/-! ### A step ended from outside (R33, R40) -/

/-- The result bytes of a step ended from outside: a QUERY's answer so far (R76), a tripped SUPPLY ON's state (R115), and
for a SUPPLY OFF not yet taken the supply state found at a trip or an unseat (section 1.6, log entry 47). -/
def outsideResult (s : State) (n : StationId) (st : InFlight) (code : Code) : List Byte :=
  match st.op with
  | .query _ => if st.handed then emptyResult 0xFF else cutResult (s.st n).link
  | .supply true => if code = .supplyTrip then [3] else []
  | .supply false => if code = .stopped then [] else [BitVec.ofNat 8 (s.st n).power.supply.code]
  | _ => []

/-- What the owning block does when a step it has taken is ended from outside, before the end (R40, R112; log
entry 53). -/
def cutTaken (n : StationId) (st : InFlight) (s : State) : State :=
  match st.op with
  | .query _ => cutLink n s
  | .press c _ _ => if st.attached then liftChan n c s else s
  | .supply _ => if (s.st n).power.supply = .ramping then setSupply n .off s else s
  | .arm _ _ => { s with waitList := s.waitList.filter fun e => e.station != n }
  | .collect slot => abandonCollect n slot s
  | .barrier _ _ _ _ => leaveArrived n s
  | _ => s

/-- What the owning block does when a step it has not yet taken is ended from outside: nothing has begun, but a COLLECT
abandons its unit (R40, R140, log entry 7). -/
def cutHanded (n : StationId) (st : InFlight) (s : State) : State :=
  match st.op with
  | .collect slot => abandonCollect n slot s
  | _ => s

/-- The owning block's part of ending a step from outside (R40). -/
def cutBlock (n : StationId) (st : InFlight) (s : State) : State :=
  if st.handed then cutHanded n st s else cutTaken n st s

/-- The step in flight ends from outside with a code (R40). -/
def cutFromOutside (n : StationId) (code : Code) (s : State) : State :=
  match (s.ctx n).step with
  | none => s
  | some st => endStep n code (outsideResult s n st code) (cutBlock n st s)

/-- A stop, a trip or an unseat ends the step in flight; a unit it frees goes through the arbiter (R40, R140), after the
step's own outcome write has been offered (log entry 44). -/
def endFromOutside (n : StationId) (code : Code) (s : State) : State := arbitrate (cutFromOutside n code s)

/-! ### HALTED and IDLE (R31, R37) -/

/-- A station enters HALTED (R31): the grants of the units it frees, the release its departure may bring to others, and its own
part-half write come in the order of log entry 50. -/
def enterHalted (n : StationId) (r : HaltReason) (s : State) : State :=
  let t := s.setCtx n { s.ctx n with
    state := .halted, halt := r, deadline := none, skipDebt := 0, badMark := false, step := none, posting := .none,
    backlog := none, pendingHalt := none }
  queuePartHalf n (setAttention n.1 (leaveLive n (arbitrate (abandonUnits n (liftAll n t)))))

/-- A station arrives in IDLE by a disable or a quiesce (R37); a reason held in HALTED is kept (R32). -/
def arriveIdle (n : StationId) (s : State) : State :=
  queuePartHalf n (s.setCtx n { s.ctx n with
    state := .idle, halt := if (s.ctx n).state = .halted then (s.ctx n).halt else .none, deadline := none,
    skipDebt := 0, badMark := false, step := none, posting := .none, backlog := none, pendingHalt := none,
    disabling := false })

/-- The fetch phase ends without a dispatch: taken is lowered and the destination entered, which without an abort or a
fault pending is the MEMORY_FAULT halt (R23, R33, R39). -/
def fetchFailed (n : StationId) (s : State) : State :=
  let t := s.setCtx n { s.ctx n with taken := (s.ctx n).taken - 1 }
  if (s.ctx n).disabling then arriveIdle n t
  else enterHalted n ((s.ctx n).pendingHalt.getD .memoryFault) t

/-- The fetch read has ended without data (R23, R39). -/
def fetchEnded (n : StationId) (s : State) : State :=
  if (s.ctx n).state = .fetching then fetchFailed n s else s

/-- A station offers its fetch read or keeps it (R165); one the engine state does not allow is refused and reported at
once as ended without data (R173, R174). -/
def offerFetch (n : StationId) (s : State) : State :=
  if s.engine.ownBusy n = true ∨ admits s.ctl.state (.fetch n) = true then stationOffer n .fetch s
  else fetchEnded n (s.setCtx n { s.ctx n with backlog := none })

/-- The station's earlier request has left the queue: one it kept is offered (R165). -/
def offerBacklog (n : StationId) (s : State) : State :=
  match (s.ctx n).backlog with
  | none => s
  | some .fetch => offerFetch n s
  | some (.outcome bytes) => stationOffer n (.outcome bytes) s
  | some .discarded => stationOffer n .discarded s

/-- Whether the station's fetch read is to be left to end: it stands in the queue, or the part has left ACTIVE and the
station still keeps it, to be refused when it is offered (R39, R165, R173). -/
def State.fetchLeft (s : State) (n : StationId) : Bool :=
  s.engine.inQueue (.fetch n) || (!s.active && (s.ctx n).backlog == some .fetch)

/-- An abort, a trip or an unseat is taken in FETCHING (R33, R39): a read in the queue is left to end, one that waits for
room is withdrawn (R166), one not yet offered is dropped, but by a quiesce (log entry 15). -/
def abortFetch (n : StationId) (s : State) : State :=
  if s.fetchLeft n then s
  else fetchFailed n
    { s.setCtx n { s.ctx n with backlog := none } with
      engine := { s.engine with room := s.engine.room.filter fun r => r.kind != .fetch n } }

/-- The reason for which the class of a posted outcome halts its station (R29). -/
def classHalt (code : Code) (d : Disposition) : Option HaltReason :=
  match code, d with
  | .supplyTrip, _ => some .supplyTrip
  | .unseated, _ => some .unseated
  | code, .halt => if code.class = .fail then some .stepFailed else Option.none
  | _, .continue | _, .skip _ => Option.none

/-- The reason for which a posting itself leads to HALTED (R29, R22). -/
def Posting.halts (p : Posting) : Option HaltReason :=
  match p with
  | .ordinary code _ d | .reported code d => classHalt code d
  | .mismatch => some .stripMismatch
  | .none | .skipped | .discard _ => Option.none

/-- A stop, a trip or an unseat acts on the station by its state (R14, R33, R37). One taken while an abort or a halt is
already in progress acts no further (R42). -/
def haltFromOutside (n : StationId) (r : HaltReason) (code : Code) (s : State) : State :=
  let c := s.ctx n
  if c.disabling = true ∨ c.pendingHalt.isSome = true ∨ c.posting.halts.isSome = true then s
  else
    let t := s.setCtx n { c with pendingHalt := some r }
    match c.state with
    | .idle | .halted => s
    | .ready => enterHalted n r s
    | .fetching => abortFetch n t
    | .running | .waitingUnit | .atBarrier => endFromOutside n code t
    | .posting => t

/-- The phase rule of a disable or quiesce (R37). A unit it frees waits for the others of the same event (R137). -/
def disablePhase (n : StationId) (s : State) : State :=
  match (s.ctx n).state with
  | .idle | .posting => s
  | .ready | .halted => arriveIdle n s
  | .fetching => abortFetch n s
  | .running | .waitingUnit | .atBarrier => cutFromOutside n .stopped s

/-- A disable or a quiesce is taken (R13, R37, R103, R118, R142): supply OFF, cohort left, channels lifted, units freed,
and the phase rule toward IDLE, in the order of log entry 36; all units it frees go through the arbiter together (R137).
A waiting COLLECT ends STOPPED before its unit takes an edge of the lifted channels, also one that would complete it (log
entry 58). One in progress already is not taken again (log entry 16). -/
def takeDisable (n : StationId) (s : State) : State :=
  if (s.ctx n).state = .idle ∨ (s.ctx n).disabling = true then s
  else
    arbitrate (abandonUnits n (disablePhase n (liftAll n (leaveLive n (setSupply n .off
      (s.setCtx n { s.ctx n with disabling := true }))))))

/-! ### Fetch and skip (R20 to R22) -/

/-- A fetch begins (R22). -/
def startFetch (n : StationId) (s : State) : State :=
  offerFetch n
    (s.setCtx n { s.ctx n with state := .fetching, posting := .none, taken := (s.ctx n).taken + 1 })

/-- A record is passed over (R21). -/
def startSkip (n : StationId) (s : State) : State :=
  stationOffer n (.outcome (outcomeBytes .skipped (s.ctx n).retired s.now s.now []))
    (s.setCtx n { s.ctx n with state := .posting, posting := .skipped, taken := (s.ctx n).taken + 1 })

/-- The station decides whether to take the next record (R20). -/
def takeNext (n : StationId) (s : State) : State :=
  if (s.ctx n).fetchable = 0 then s.setCtx n { s.ctx n with state := .ready, posting := .none }
  else if (s.ctx n).skipDebt = 0 then startFetch n s
  else startSkip n s

/-- The station leaves POSTING (R30). -/
def leavePosting (n : StationId) (s : State) : State :=
  let c := s.ctx n
  if c.disabling then arriveIdle n s
  else match c.pendingHalt.or c.posting.halts with
    | some r => enterHalted n r s
    | none => if c.badMark then enterHalted n .badHandover s else takeNext n s

/-! ### Dispatch (R22, R24, R25) -/

/-- The step of a request half, BAD_STEP's reading included (R24). -/
def stepOfRecord (bs : List Byte) (hasCohort : Bool) (start : Word) : InFlight :=
  { op := if (dispositionOf (byteAt bs 1)).isSome then (stepOf bs hasCohort).getD .invalid else .invalid,
    start := start, noticeFlag := (byteAt bs 1).getLsbD 0, attached := (byteAt bs 1).getLsbD 1,
    disp := (dispositionOf (byteAt bs 1)).getD .halt, deadline := leNat bs 4 2, handed := true }

/-- A tag that differs from the record's sequence (R22): taken is lowered and STRIP_MISMATCH posted. -/
def stripMismatch (n : StationId) (s : State) : State :=
  stationOffer n (.outcome (outcomeBytes .stripMismatch (s.ctx n).retired s.now s.now []))
    (s.setCtx n { s.ctx n with state := .posting, posting := .mismatch, taken := (s.ctx n).taken - 1 })

/-- A validated step is in flight at its owning block; a BAD_STEP ends at once (R24, R25). -/
def dispatch (n : StationId) (bs : List Byte) (s : State) : State :=
  if BitVec.ofNat 16 (leNat bs 2 2) = (s.ctx n).retired then
    let st := stepOfRecord bs (s.ctx n).cohort.isSome s.now
    let t := s.setCtx n { s.ctx n with state := .running, step := some st }
    if st.op = .invalid then endStep n .badStep [] t else t
  else stripMismatch n s

/-- The fetch read has completed: tag check and dispatch, unless an abort or a fault is pending (R22, R172). -/
def fetchCompleted (n : StationId) (bs : List Byte) (s : State) : State :=
  if (s.ctx n).state = .fetching then
    if (s.ctx n).disabling = true ∨ (s.ctx n).pendingHalt.isSome = true then fetchFailed n s else dispatch n bs s
  else s

/-! ### The sequencer's own kinds -/

/-- PAUSE (R44): the deadline timer counts the length. -/
def execPause (n : StationId) (s : State) : Host.Outcome State Fault Refusal :=
  match s.handedStep n with
  | some st => match st.op with
    | .pause length =>
      .next (s.setCtx n { s.ctx n with step := some { st with handed := false }, deadline := some (length + 1) })
    | _ => .next s
  | none => .next s

/-- The deadline timer of a PAUSE has expired. -/
def pauseExpiryDue (s : State) (n : StationId) : Bool :=
  match s.flyingStep n with
  | some st => match st.op with
    | .pause _ => s.expired n
    | _ => false
  | none => false

/-- PAUSE_EXPIRY (R44). -/
def execPauseExpiry (n : StationId) (s : State) : Host.Outcome State Fault Refusal :=
  .next (if pauseExpiryDue s n then endStep n .ok [] s else s)

/-- NOTE (R45). -/
def execNote (n : StationId) (s : State) : Host.Outcome State Fault Refusal :=
  match s.handedStep n with
  | some st => match st.op with
    | .note bytes => .next (endStep n .ok bytes s)
    | _ => .next s
  | none => .next s

/-- Whether a SETUP may act: all four channels IDLE and both slots empty (R46). -/
def setupAllowed (s : State) (n : StationId) : Bool :=
  ((List.finRange 4).all fun c => (s.chan n c).state == .idle) &&
    (List.finRange 2).all fun slot => (s.slotUnit n slot).isNone

/-- SETUP (R46): every setting together, or SETUP_BUSY. -/
def setupStep (n : StationId) (v : Settings) (s : State) : State :=
  if setupAllowed s n then endStep n .ok [] (s.setCtx n { s.ctx n with settings := v })
  else endStep n .setupBusy [] s

/-- SETUP: the station's dispatched SETUP is executed. -/
def execSetup (n : StationId) (s : State) : Host.Outcome State Fault Refusal :=
  match s.handedStep n with
  | some st => match st.op with
    | .setup v => .next (setupStep n v s)
    | _ => .next s
  | none => .next s

/-! ### Posting (R21, R22, R28, R29) -/

/-- The skip debt after a retirement's class is applied (R29). -/
def debtAfter (debt : Nat) (code : Code) (d : Disposition) : Nat :=
  match d with
  | .skip n => if code.class = .fail then min (debt + n) 15 else debt
  | .halt | .continue => debt

/-- The class of a posted outcome is applied, and the station leaves POSTING (R29, R30). -/
def applyClass (n : StationId) (code : Code) (d : Disposition) (s : State) : State :=
  leavePosting n (s.setCtx n { s.ctx n with skipDebt := debtAfter (s.ctx n).skipDebt code d })

/-- The part-half write that ends a posting is queued: the station stays in POSTING while it waits for room (R28), and
applies the class after it (R29; log entry 37). A SKIPPED or DISCARDED outcome is of a class without effect. -/
def reportPosting (n : StationId) (code : Code) (d : Disposition) (s : State) : State :=
  if s.engine.inRoom (.partHalf n) then s.setCtx n { s.ctx n with posting := .reported code d }
  else applyClass n code d s

/-- An ordinary retirement (R28, R29): retired, part half, notice-on-retire, class, and the way out of POSTING. -/
def retireOrdinary (n : StationId) (code : Code) (flag : Bool) (d : Disposition) (s : State) : State :=
  let t := queuePartHalf n (s.setCtx n { s.ctx n with retired := (s.ctx n).retired + 1 })
  reportPosting n code d (if flag then setAttention n.1 t else t)

/-- A SKIPPED record is retired (R21). -/
def retireSkipped (n : StationId) (s : State) : State :=
  reportPosting n .skipped .continue (queuePartHalf n
    (s.setCtx n { s.ctx n with retired := (s.ctx n).retired + 1, skipDebt := (s.ctx n).skipDebt - 1 }))

/-- Whether the write for which a posting that is no DISCARD range waits has entered the queue: its outcome write, or the
part-half write after it (R28, log entries 8 and 37). -/
def retirementDue (s : State) (n : StationId) : Bool :=
  (s.ctx n).state == .posting &&
    (match (s.ctx n).posting with
      | .ordinary _ _ _ | .skipped | .mismatch => s.postingTaken n
      | .reported _ _ => !s.engine.inRoom (.partHalf n)
      | .none | .discard _ => false)

/-- The write for which the posting waits has entered the queue. -/
def retire (n : StationId) (s : State) : State :=
  match (s.ctx n).posting with
  | .ordinary code flag d => retireOrdinary n code flag d s
  | .skipped => retireSkipped n s
  | .mismatch => leavePosting n s
  | .reported code d => applyClass n code d s
  | .none | .discard _ => s

/-- RETIREMENT (R28, R29, R30). -/
def execRetirement (n : StationId) (s : State) : Host.Outcome State Fault Refusal :=
  .next (if retirementDue s n then noticeKick (retire n s) else s)

/-- The next record of a discard range, or the end of the range (R35). Taken rises for the next record in the event that
retires the one before, also while its write is kept until the earlier one has been sent (log entry 52). -/
def discardNext (n : StationId) (last : Half) (s : State) : State :=
  if (s.ctx n).taken = last then reportPosting n .discarded .continue (queuePartHalf n s)
  else stationOffer n .discarded (s.setCtx n { s.ctx n with taken := (s.ctx n).taken + 1 })

/-- Whether a DISCARDED outcome write has entered the queue (R35). -/
def discardedDue (s : State) (n : StationId) : Bool :=
  (s.ctx n).state == .posting && s.postingTaken n && (s.ctx n).taken != (s.ctx n).retired &&
    (match (s.ctx n).posting with
      | .discard _ => true
      | .none | .ordinary _ _ _ | .skipped | .mismatch | .reported _ _ => false)

/-- A DISCARDED record is retired, and the range goes on (R35). -/
def retireDiscarded (n : StationId) (s : State) : State :=
  match (s.ctx n).posting with
  | .discard last => discardNext n last (s.setCtx n { s.ctx n with retired := (s.ctx n).retired + 1 })
  | .none | .ordinary _ _ _ | .skipped | .mismatch | .reported _ _ => s

/-- DISCARDED (R35). -/
def execDiscarded (n : StationId) (s : State) : Host.Outcome State Fault Refusal :=
  .next (if discardedDue s n then noticeKick (retireDiscarded n s) else s)

/-! ### The observation (R10 to R18) -/

/-- The checks of an enable (R11). -/
def HostHalf.valid (h : HostHalf) : Bool :=
  h.base.toNat % 64 == 0 && 3 ≤ h.exp && h.exp ≤ 10 && (cohortOf h.cohort).isSome

/-- The counts an enable or a BAD_ENTRY takes from the observation (R11, R12). -/
def Context.counted (c : Context) (h : HostHalf) : Context :=
  { c with taken := h.origin, retired := h.origin, lastRun := h.origin, lastRead := h.origin, stopSeen := h.stop,
           resumeSeen := h.resume }

/-- A passing enable (R11). -/
def enabled (n : StationId) (h : HostHalf) (s : State) : State :=
  let t := s.setSt n { s.st n with
    ctx := { ((s.ctx n).counted h) with
      settings := Settings.default, skipDebt := 0, badMark := false, halt := .none, base := h.base, exp := h.exp,
      cohort := (cohortOf h.cohort).join, state := .ready },
    link := { (s.st n).link with latch := none } }
  queuePartHalf n (joinLive n t)

/-- A BAD_ENTRY (R12). A station already HALTED stays so with the new counts (log entry 17). -/
def badEntry (n : StationId) (h : HostHalf) (s : State) : State :=
  let t := s.setCtx n ((s.ctx n).counted h)
  if (s.ctx n).state = .halted then queuePartHalf n t else enterHalted n .badEntry t

/-- An enable, or the re-enable that resumes a BAD_ENTRY halt (R11, R12). -/
def enable (n : StationId) (h : HostHalf) (s : State) : State :=
  if h.valid then enabled n h s else badEntry n h s

/-- The mode step (R11, R13). -/
def modeStep (n : StationId) (h : HostHalf) (s : State) : State :=
  if h.enabled then (if (s.ctx n).state = .idle then enable n h s else s) else takeDisable n s

/-- The stop step (R14). -/
def stopStep (n : StationId) (h : HostHalf) (s : State) : State :=
  if h.stop = (s.ctx n).stopSeen then s
  else haltFromOutside n .stopRequest .stopped
    (queuePartHalf n (s.setCtx n { s.ctx n with stopSeen := h.stop }))

/-- A resume with CONTINUE (R34). -/
def resumeContinue (n : StationId) (s : State) : State :=
  queuePartHalf n (joinLive n (s.setCtx n { s.ctx n with state := .ready, halt := .none }))

/-- A resume with DISCARD (R35): the range is fixed and its first record taken; an empty range ends at once (log entry 28). -/
def resumeDiscard (n : StationId) (s : State) : State :=
  discardNext n (s.ctx n).lastRead
    (joinLive n (s.setCtx n { s.ctx n with state := .posting, halt := .none, posting := .discard (s.ctx n).lastRead }))

/-- The resume step (R15). -/
def resumeStep (n : StationId) (h : HostHalf) (s : State) : State :=
  if h.resume = (s.ctx n).resumeSeen then s
  else
    let t := queuePartHalf n (s.setCtx n { s.ctx n with resumeSeen := h.resume })
    if (s.ctx n).state = .halted then
      if (s.ctx n).halt = .badEntry then enable n h t
      else if h.discard then resumeDiscard n t
      else resumeContinue n t
    else t

/-- A lowered count cuts a discard range (R196). -/
def Posting.cut (p : Posting) (taken h : Half) : Posting :=
  match p with
  | .discard last => if (h - taken).toNat < (last - taken).toNat then .discard h else p
  | .none | .ordinary _ _ _ | .skipped | .mismatch | .reported _ _ => p

/-- A passing handover count (R16, R17, R196). A STRIP_MISMATCH write that waits for room is not withdrawn by it (log entry
42). -/
def handoverPassed (n : StationId) (h : Half) (s : State) : State :=
  let c := s.ctx n
  let t := s.setCtx n { c with lastRead := h, badMark := false, posting := c.posting.cut c.taken h }
  if c.state = .ready then takeNext n t else t

/-- A failing handover count (R16). -/
def handoverFailed (n : StationId) (s : State) : State :=
  match (s.ctx n).state with
  | .ready => enterHalted n .badHandover s
  | .fetching | .running | .waitingUnit | .atBarrier | .posting => s.setCtx n { s.ctx n with badMark := true }
  | .halted | .idle => s

/-- The handover step (R16). -/
def handoverStep (n : StationId) (h : HostHalf) (s : State) : State :=
  let c := s.ctx n
  if c.state = .idle ∨ (c.state = .halted ∧ c.halt = .badEntry) ∨ c.disabling = true then s
  else if c.handoverPasses h.handover then handoverPassed n h.handover s
  else handoverFailed n s

/-- A station takes its observation in the order mode, stop, resume, handover (R10). -/
def observe (n : StationId) (bs : List Byte) (s : State) : State :=
  let h := hostHalfOf bs
  handoverStep n h (resumeStep n h (stopStep n h (modeStep n h s)))

/-- Every station takes its own 32 bytes of the directory (R9), in ascending order (log entry 9). -/
def observeAll (data : List Byte) (s : State) : State :=
  (List.finRange 24).foldl (fun t n => observe n ((data.drop (64 * n.1)).take 32) t) s

end Sys2Proof.Machine
end

