-- ==== Sys2Proof/Machine/Supply.lean ====
section
/-! DEFINITION. Seat and station supply (chapter 6) and the input filters' events (section 3.4), with the meanings of
SUPPLY, SUPPLY_GOOD_RISE, NO_SUPPLY_GOOD, TRIP_ACCEPTED, LOSS_OF_SUPPLY_GOOD, FIRST_EVALUATION, SEAT_CHANGE, INPUT_CHANGE
and FILTER_ACCEPTANCE. -/

namespace Sys2Proof.Machine

/-! ### Trips (R113 to R115) -/

/-- A trip is taken (R115): TRIPPED, the trip count raised, and the trip reported to the station (R33). -/
def tripSupply (n : StationId) (s : State) : State :=
  let t := setSupply n .tripped s
  haltFromOutside n .supplyTrip .supplyTrip
    (queuePartHalf n (t.setPower n { (t.st n).power with tripCount := (t.st n).power.tripCount + 1 }))

/-- Trips are taken in RAMPING and ON (R108, R113). -/
def SupplyState.trips (x : SupplyState) : Bool :=
  match x with
  | .ramping | .on => true
  | .off | .tripped => false

/-- An accepted rise of TRIP is to be taken (R113). -/
def tripDue (s : State) (n : StationId) : Bool := (s.st n).power.tripRise && (s.st n).power.supply.trips

/-- TRIP_ACCEPTED (R113, R115). -/
def execTripAccepted (n : StationId) (s : State) : Host.Outcome State Fault Refusal :=
  .next (if tripDue s n then noticeKick (tripSupply n s) else s)

/-- The loss-of-supply-good candidate has lasted the trip filter time (R114). -/
def lossDue (s : State) (n : StationId) : Bool := (s.st n).power.supply == .on && (s.st n).power.loss == some 0

/-- LOSS_OF_SUPPLY_GOOD (R114, R115). -/
def execLossOfSupplyGood (n : StationId) (s : State) : Host.Outcome State Fault Refusal :=
  .next (if lossDue s n then noticeKick (tripSupply n s) else s)

/-! ### SUPPLY -/

/-- The ramp begins (R110); with TRIP accepted high it trips at once (R113). -/
def startRamp (n : StationId) (st : InFlight) (s : State) : State :=
  let t := setSupply n .ramping (markWaiting n st s)
  if (s.st n).power.trip.accepted then noticeKick (tripSupply n t) else t

/-- SUPPLY ON (R109, R110). A RAMPING supply is never found; its step would wait with the ramp. -/
def supplyOn (n : StationId) (st : InFlight) (s : State) : State :=
  let p := (s.st n).power
  if p.seated then
    match p.supply with
    | .on => endStep n .ok [BitVec.ofNat 8 p.supply.code] s
    | .off | .tripped => startRamp n st s
    | .ramping => markWaiting n st s
  else endStep n .notSeated [BitVec.ofNat 8 p.supply.code] s

/-- SUPPLY OFF (R109): the change of the supply is reported before the step ends (log entry 53). -/
def supplyOff (n : StationId) (s : State) : State :=
  endStep n .ok [BitVec.ofNat 8 SupplyState.off.code] (setSupply n .off s)

/-- SUPPLY: the station's dispatched SUPPLY is taken by its block. -/
def execSupply (n : StationId) (s : State) : Host.Outcome State Fault Refusal :=
  match s.handedStep n with
  | some st => match st.op with
    | .supply on => .next (if on then supplyOn n st s else supplyOff n s)
    | _ => .next s
  | none => .next s

/-- An accepted rise of SUPPLY_GOOD in RAMPING is to be taken (R110). -/
def goodRiseDue (s : State) (n : StationId) : Bool :=
  (s.st n).power.goodRise && (s.st n).power.supply == .ramping

/-- SUPPLY_GOOD_RISE (R110): ON, and the step ends OK, in this order (log entry 53). -/
def execSupplyGoodRise (n : StationId) (s : State) : Host.Outcome State Fault Refusal :=
  .next (if goodRiseDue s n then endStep n .ok [BitVec.ofNat 8 SupplyState.on.code] (setSupply n .on s) else s)

/-- The deadline has expired in RAMPING (R111). -/
def noSupplyGoodDue (s : State) (n : StationId) : Bool := (s.st n).power.supply == .ramping && s.expired n

/-- NO_SUPPLY_GOOD (R111): OFF, and the step ends, in this order (log entry 53). -/
def execNoSupplyGood (n : StationId) (s : State) : Host.Outcome State Fault Refusal :=
  .next (if noSupplyGoodDue s n then
      endStep n .noSupplyGood [BitVec.ofNat 8 SupplyState.off.code] (setSupply n .off s)
    else s)

/-! ### The seat (R105 to R107, R117) -/

/-- One ms tick of the debounce (R105); before the first evaluation the run carries a direction (R106). -/
def Power.sample (p : Power) : Power :=
  if p.evaluated then { p with run := if p.rawSeat = p.seated then 0 else min Config.seatTicks (p.run + 1) }
  else if p.runDir = some p.rawSeat then { p with run := min Config.seatTicks (p.run + 1) }
  else { p with run := 1, runDir := some p.rawSeat }

/-- The supply and the station at a change to EMPTY (R117). -/
def unseat (n : StationId) (s : State) : State :=
  haltFromOutside n .unseated .unseated
    (if (s.st n).power.supply.trips then setSupply n .off s else s)

/-- A change of the debounced seat state to `closed` (R107, R117): its attention bit, its SEAT edge and its part-half write
come before what an unseat does to the supply and the station (log entry 46). -/
def seatChanged (n : StationId) (closed : Bool) (s : State) : State :=
  let p := (s.st n).power
  let t := queuePartHalf n (emitEdge n .seat closed (setAttention n.1
    (s.setPower n { p with
      seated := closed, evaluated := true, run := 0, runDir := none, seatCount := p.seatCount + 1 })))
  noticeKick (if closed then t else unseat n t)

/-- The run has reached 20 after the first evaluation. -/
def seatChangeDue (s : State) (n : StationId) : Bool :=
  (s.st n).power.evaluated && (s.st n).power.run == Config.seatTicks

/-- SEAT_CHANGE (R105, R107, R117). -/
def execSeatChange (n : StationId) (s : State) : Host.Outcome State Fault Refusal :=
  .next (if seatChangeDue s n then seatChanged n (!(s.st n).power.seated) s else s)

/-- The first evaluation's run has reached 20 (R106). -/
def firstEvaluationDue (s : State) (n : StationId) : Bool :=
  !(s.st n).power.evaluated && (s.st n).power.run == Config.seatTicks

/-- The first evaluation ends (R106): closed is a change of the seat, open sets the mark alone. -/
def firstEvaluation (n : StationId) (s : State) : State :=
  if (s.st n).power.runDir = some true then seatChanged n true s
  else s.setPower n { (s.st n).power with evaluated := true, run := 0, runDir := none }

/-- FIRST_EVALUATION (R106). -/
def execFirstEvaluation (n : StationId) (s : State) : Host.Outcome State Fault Refusal :=
  .next (if firstEvaluationDue s n then firstEvaluation n s else s)

/-! ### Raw inputs (R56, R57, R58) -/

/-- The filter time of a station's input in REFCLK periods (R57). -/
def Settings.filterPeriods (v : Settings) : FilteredPin → Nat
  | .sense0 => micros v.sense0
  | .sense1 => micros v.sense1
  | .supplyGood => micros Config.supplyGoodMicros
  | .trip => micros (10 * v.tripFilter)

/-- A station's input filter. -/
def Station.filter (x : Station) : FilteredPin → Filter
  | .sense0 => x.sense0
  | .sense1 => x.sense1
  | .supplyGood => x.power.good
  | .trip => x.power.trip

/-- Replace a station's input filter. -/
def Station.setFilter (x : Station) (p : FilteredPin) (f : Filter) : Station :=
  match p with
  | .sense0 => { x with sense0 := f }
  | .sense1 => { x with sense1 := f }
  | .supplyGood => { x with power := { x.power with good := f } }
  | .trip => { x with power := { x.power with trip := f } }

/-- The loss-of-supply-good filter sees the raw level while the supply is ON (R114); a return to high drops also a
candidate that has lasted its time and is not yet taken (log entry 38). -/
def Power.watchGood (p : Power) (high : Bool) (periods : Nat) : Power :=
  if p.supply = .on then
    { p with loss := if high then none else match p.loss with
        | some k => some k
        | none => some periods }
  else p

/-- The raw level of a station's filtered input is `high` now. -/
def stationInput (n : StationId) (p : FilteredPin) (high : Bool) (s : State) : State :=
  let x := s.st n
  let v := x.ctx.settings
  let y := x.setFilter p (s.sense (x.filter p) high (v.filterPeriods p))
  s.setSt n (match p with
    | .supplyGood => { y with power := y.power.watchGood high (v.filterPeriods .trip) }
    | .sense0 | .sense1 | .trip => y)

/-- The other parts on a sync line pull it or leave it; the filter sees the pin (R57). -/
def lineInput (l : Line) (high : Bool) (s : State) : State :=
  let x : SyncLine := { s.line l with others := high }
  s.setLine l { x with filter := s.sense x.filter x.pin (micros Config.syncMicros) }

/-- The effect of a raw input level. -/
def inputChange (i : InputId) (high : Bool) (s : State) : State :=
  match i with
  | .filtered (.station n p) => stationInput n p high s
  | .filtered (.sync l) => lineInput l high s
  | .seat n => s.setPower n { (s.st n).power with rawSeat := high }

/-- INPUT_CHANGE (R56, R105). -/
def execInputChange (i : InputId) (high : Bool) (s : State) : Host.Outcome State Fault Refusal :=
  .next (inputChange i high s)

/-! ### Acceptance (R56, R57) -/

/-- An input filter of the part. -/
def State.filter (s : State) : FilterId → Filter
  | .station n p => (s.st n).filter p
  | .sync l => (s.line l).filter

/-- The filter time current for a candidate that begins now, in REFCLK periods (R57, R58). -/
def State.filterPeriods (s : State) : FilterId → Nat
  | .station n p => (s.ctx n).settings.filterPeriods p
  | .sync _ => micros Config.syncMicros

/-- A candidate has lasted its filter time (R56). -/
def acceptanceDue (s : State) (f : FilterId) : Bool := (s.filter f).cand == some 0

/-- The consumers of an accepted edge of a station's input (R57); the marks are taken by their own commands (log entry 23). -/
def stationEdge (n : StationId) (p : FilteredPin) (high : Bool) (s : State) : State :=
  let w := (s.st n).power
  match p with
  | .sense0 => emitEdge n .sense0 high s
  | .sense1 => emitEdge n .sense1 high s
  | .supplyGood =>
    emitEdge n .supplyGood high (s.setPower n { w with goodRise := w.goodRise || (high && w.supply == .ramping) })
  | .trip => s.setPower n { w with tripRise := w.tripRise || (high && w.supply.trips) }

/-- A filter accepts its candidate and hands the edge to the consumers (R56, R57). -/
def acceptFilter (f : FilterId) (s : State) : State :=
  let g := (s.filter f).accept (s.filterPeriods f)
  match f with
  | .station n p => stationEdge n p g.accepted (s.setSt n ((s.st n).setFilter p g))
  | .sync l =>
    s.setLine l { s.line l with
      filter := g, riseDue := (s.line l).riseDue || g.accepted, fallDue := (s.line l).fallDue || !g.accepted }

/-- FILTER_ACCEPTANCE (R56). -/
def execFilterAcceptance (f : FilterId) (s : State) : Host.Outcome State Fault Refusal :=
  .next (if acceptanceDue s f then acceptFilter f s else s)

end Sys2Proof.Machine
end

