-- ==== Sys2Proof/Machine/Part.lean ====
section
/-! DEFINITION. The Directory Sweep (section 1.4), Part Control and the register writes (chapter 10), the two resets, with
the meanings of the reset, CONTROL and register rows, SWEEP_TIMER_EXPIRY, QUIESCE_COMPLETE and FAULTED_TO_CONFIG. -/

namespace Sys2Proof.Machine

/-! ### The sweep (R7 to R9) -/

/-- A sweep begins: the timer restarts with the period current now, and the read is offered (R7, R9). -/
def beginSweep (s : State) : State :=
  offer { kind := .sweepRead, addr := s.ctl.base, length := 1536, bytes := [] }
    { s with sweep := { s.sweep with timer := some (micros (10 * s.ctl.period.toNat)), inFlight := true } }

/-- The sweep in flight has ended; in ACTIVE a pending one begins at once (R8). -/
def endSweep (s : State) : State :=
  let t := { s with sweep := { s.sweep with inFlight := false } }
  if s.active = true ∧ s.sweep.pending = true then beginSweep { t with sweep := { t.sweep with pending := false } } else t

/-- A write to SWEEP (R8). -/
def sweepWrite (s : State) : State :=
  if s.active then
    if s.sweep.inFlight then { s with sweep := { s.sweep with pending := true } } else beginSweep s
  else s

/-- The sweep timer has ended in ACTIVE. -/
def sweepTimerDue (s : State) : Bool := s.active && s.sweep.timer == some 0

/-- The sweep timer ends (R7): a sweep begins, or one is pending and the timer stands until it begins. -/
def sweepTimerExpiry (s : State) : State :=
  if s.sweep.inFlight then { s with sweep := { s.sweep with timer := none, pending := true } } else beginSweep s

/-- SWEEP_TIMER_EXPIRY (R7). -/
def execSweepTimerExpiry (s : State) : Host.Outcome State Fault Refusal :=
  .next (if sweepTimerDue s then sweepTimerExpiry s else s)

/-- SWEEP (R8): the word and the byte enables do not matter (R184). -/
def execSweep (_w : Word) (_be : BitVec 4) (s : State) : Host.Outcome State Fault Refusal := .next (sweepWrite s)

/-! ### Leaving ACTIVE (R173, R190) -/

/-- Whether the drain keeps an entry: a write, the message, or a sent read (R173). -/
def Entry.drains (e : Entry) : Bool := !e.req.kind.isRead || e.sent.isSome

/-- The engine enters DRAINING: unsent reads are dropped and waiting ones withdrawn, and the room wait list refills the
freed entries (R166, R173). -/
def startDrain (s : State) : State :=
  let t := refillAll { s with engine := { s.engine with
    queue := s.engine.queue.filter Entry.drains,
    room := s.engine.room.filter fun r => !r.kind.isRead } }
  { t with sweep := { timer := none, pending := false, inFlight := t.engine.inQueue .sweepRead } }

/-- A quiesce reaches a station (R43): it is taken as a disable, and a fetch phase whose read is no longer in the queue,
dropped or withdrawn by the drain, ends (R39, R173), also that of a station whose disable was in progress (R42). -/
def quiesceStation (s : State) (n : StationId) : State :=
  let t := takeDisable n s
  if (t.ctx n).state = .fetching then abortFetch n t else t

/-- The part leaves ACTIVE for QUIESCING with a destination (R190, R191): drain, lines OFF (R162), every station
quiesced (R43), in ascending order (log entries 9 and 34). -/
def enterQuiesce (d : Destination) (s : State) : State :=
  let t := startDrain { s with ctl := { s.ctl with state := .quiescing, dest := d } }
  (List.finRange 24).foldl quiesceStation (setDrive .b .off (setDrive .a .off t))

/-! ### The resets (R194, R195) -/

/-- A station after either reset: its raw inputs stand, its filters take them (R58), all else is as after reset. -/
def Station.wiped (x : Station) (p : Power) : Station :=
  { ctx := Context.initial, link := Link.initial x.link.outside, chans := Vector.replicate 4 Channel.initial, power := p,
    sense0 := Filter.settled x.sense0.raw, sense1 := Filter.settled x.sense1.raw }

/-- A Seat and Supply block after a cold reset (R119). -/
def Power.cold (p : Power) : Power := Power.initial p.rawSeat p.good.raw p.trip.raw

/-- A Seat and Supply block after a soft reset keeps its seat state and evaluated mark (R106, R119). -/
def Power.soft (p : Power) : Power := { p.cold with seated := p.seated, evaluated := p.evaluated }

/-- What the model keeps through a reset beside the inputs: the log of what was sent, the read tags, the choice counter
and the waiting commands (log entry 26). -/
def State.keepModel (new old : State) : State :=
  { new with
    engine := { new.engine with nextTag := old.engine.nextTag },
    sentLog := old.sentLog, choices := old.choices, pending := old.pending,
    lineA := SyncLine.initial old.lineA.others, lineB := SyncLine.initial old.lineB.others }

/-- A cold reset (R194). -/
def coldReset (s : State) : State :=
  ({ State.reset with stations := s.stations.map fun x => x.wiped x.power.cold } : State).keepModel s

/-- A soft reset (R195): WORK_BASE, HOLDOFF, NOTICE_MASK, the part clock and the seat states are kept. -/
def softReset (s : State) : State :=
  ({ State.reset with
    stations := s.stations.map fun x => x.wiped x.power.soft,
    time := { s.time with firstPeriod := true },
    ctl := { State.reset.ctl with workLo := s.ctl.workLo, workHi := s.ctl.workHi, holdoff := s.ctl.holdoff },
    notice := { State.reset.notice with mask := s.notice.mask } } : State).keepModel s

/-- COLD_RESET (R194): every cause has the same effect. -/
def execColdReset (_cause : ResetCause) (s : State) : Host.Outcome State Fault Refusal := .next (coldReset s)

/-! ### CONTROL (R186) -/

/-- Whether none of the writer's requests stands in the queue or waits for room and no send is under way (R193, log
entry 18). -/
def writerClear (s : State) : Bool :=
  s.notice.writer != .sending &&
    !(s.engine.inQueue .noticeBlock || s.engine.inQueue .message || s.engine.inRoom .noticeBlock || s.engine.inRoom .message)

/-- The part enters CONFIG from FAULTED (R193). -/
def enterConfig (s : State) : State := { s with ctl := { s.ctl with state := .config, leaving := false } }

/-- A write with RUN 0 in FAULTED (R193): CONFIG at once, or as soon as the writer's requests have left the queue. -/
def leaveFaulted (s : State) : State :=
  if writerClear s then enterConfig s else { s with ctl := { s.ctl with leaving := true } }

/-- A sync line takes its use flag while the part is ACTIVE (R161); a pull that the judging ends at once has reached the filter
(log entry 55). -/
def applyUse (l : Line) (s : State) : State :=
  if s.ctl.useFlag l then (if (s.line l).drive = .off then judgeLine l (setDrive l .pull s) else s)
  else if (s.line l).drive = .off then s
  else setDrive l .off s

/-- Both lines take their use flags. -/
def applyUses (s : State) : State := applyUse .b (applyUse .a s)

/-- The entry into ACTIVE (R189): base latched, first sweep, a part-half write of every station, lines, notices. The sweep
read is offered before the part-half writes (log entry 49). -/
def enterActive (s : State) : State :=
  let t := beginSweep { s with ctl := { s.ctl with state := .active, fault := .none, base := s.ctl.workBase } }
  noticeKick (applyUses ((List.finRange 24).foldl (fun u n => queuePartHalf n u) t))

/-- A start request (R189): refused with BAD_BASE unless WORK_BASE is a multiple of 4096. -/
def startRequest (s : State) : State :=
  if s.ctl.workBase.toNat % 4096 = 0 then enterActive s
  else { s with ctl := { s.ctl with fault := .badBase, run := false } }

/-- The fields a CONTROL write stores; a SWEEP_PERIOD of 0 is not stored (R7, R186). -/
def Control.stored (c : Control) (v : Word) : Control :=
  { c with
    run := v.getLsbD 0, useA := v.getLsbD 2, useB := v.getLsbD 3,
    period := if (v >>> 16).setWidth 16 = (0 : Half) then c.period else (v >>> 16).setWidth 16 }

/-- The part state reacts to the stored RUN bit, and in ACTIVE the lines to the use flags (R161, R186). -/
def controlReact (s : State) : State :=
  match s.ctl.state, s.ctl.run with
  | .config, true => startRequest s
  | .config, false => s
  | .active, true => applyUses s
  | .active, false => enterQuiesce .config s
  | .quiescing, _ => s
  | .faulted, true => s
  | .faulted, false => leaveFaulted s

/-- A write to CONTROL (R184, R186): with SOFT_RESET 1 a soft reset and nothing else. -/
def controlWrite (w : Word) (be : BitVec 4) (s : State) : State :=
  let v := mergeBytes be w (controlWord s.ctl)
  if v.getLsbD 1 then softReset s else controlReact { s with ctl := s.ctl.stored v }

/-- SOFT_RESET: a CONTROL write with SOFT_RESET 1 (R195, log entry 22). -/
def execSoftReset (w : Word) (be : BitVec 4) (s : State) : Host.Outcome State Fault Refusal := .next (controlWrite w be s)

/-- START_REQUEST: a CONTROL write with RUN 1 (R189, log entry 22). -/
def execStartRequest (w : Word) (be : BitVec 4) (s : State) : Host.Outcome State Fault Refusal := .next (controlWrite w be s)

/-- QUIESCE: a CONTROL write with RUN 0 (R190, log entry 22). -/
def execQuiesce (w : Word) (be : BitVec 4) (s : State) : Host.Outcome State Fault Refusal := .next (controlWrite w be s)

/-- LEAVE_FAULTED: a CONTROL write with RUN 0 (R193, log entry 22). -/
def execLeaveFaulted (w : Word) (be : BitVec 4) (s : State) : Host.Outcome State Fault Refusal := .next (controlWrite w be s)

/-- SYNC_USE_SET: a CONTROL write that sets a use flag (R161, log entry 22). -/
def execSyncUseSet (w : Word) (be : BitVec 4) (s : State) : Host.Outcome State Fault Refusal := .next (controlWrite w be s)

/-- SYNC_USE_CLEAR: a CONTROL write that clears a use flag (R161, log entry 22). -/
def execSyncUseClear (w : Word) (be : BitVec 4) (s : State) : Host.Outcome State Fault Refusal := .next (controlWrite w be s)

/-- SWEEP_PERIOD: a CONTROL write that names a period (R7, log entry 22). -/
def execSweepPeriod (w : Word) (be : BitVec 4) (s : State) : Host.Outcome State Fault Refusal := .next (controlWrite w be s)

/-! ### The other registers (R178, R179, R187) -/

/-- ATTENTION_CLEAR (R178). -/
def execAttentionClear (w : Word) (be : BitVec 4) (s : State) : Host.Outcome State Fault Refusal :=
  .next (clearAttention w be s)

/-- A write to NOTICE_MASK (R179); the setting of the pending flag may begin a send (R180). -/
def maskWrite (w : Word) (be : BitVec 4) (s : State) : State := noticeKick (writeMask w be s)

/-- NOTICE_MASK_WRITE (R179). -/
def execNoticeMaskWrite (w : Word) (be : BitVec 4) (s : State) : Host.Outcome State Fault Refusal := .next (maskWrite w be s)

/-- A write to HOLDOFF (R187). -/
def holdoffWrite (w : Word) (be : BitVec 4) (s : State) : State :=
  { s with ctl := { s.ctl with holdoff := (mergeBytes be w (s.ctl.holdoff.setWidth 32)).setWidth 16 } }

/-- A write to WORK_BASE_LO, stored in CONFIG alone (R187). -/
def workLoWrite (w : Word) (be : BitVec 4) (s : State) : State :=
  if s.ctl.state = .config then { s with ctl := { s.ctl with workLo := mergeBytes be w s.ctl.workLo } } else s

/-- A write to WORK_BASE_HI, stored in CONFIG alone (R187). -/
def workHiWrite (w : Word) (be : BitVec 4) (s : State) : State :=
  if s.ctl.state = .config then { s with ctl := { s.ctl with workHi := mergeBytes be w s.ctl.workHi } } else s

/-- A write to the register at offset 4 × `reg`; read-only and absent registers take none (R184; log entry 33). -/
def registerWrite (reg : Nat) (w : Word) (be : BitVec 4) (s : State) : State :=
  match reg with
  | 2 => controlWrite w be s
  | 3 => holdoffWrite w be s
  | 4 => workLoWrite w be s
  | 5 => workHiWrite w be s
  | 6 => sweepWrite s
  | 7 => clearAttention w be s
  | 8 => maskWrite w be s
  | _ => s

/-- REGISTER_WRITE (R187). -/
def execRegisterWrite (reg : Nat) (w : Word) (be : BitVec 4) (s : State) : Host.Outcome State Fault Refusal :=
  .next (registerWrite reg w be s)

/-! ### Leaving QUIESCING and FAULTED (R192, R193) -/

/-- Every station IDLE and the drain complete, no send under way (R192, log entry 18). -/
def quiesceDone (s : State) : Bool :=
  s.ctl.state == .quiescing && ((List.finRange 24).all fun n => (s.ctx n).state == .idle) && s.engine.drained &&
    s.notice.writer != .sending

/-- The part leaves QUIESCING for its destination; the entry into FAULTED sets PART (R191, R192). -/
def quiesceComplete (s : State) : State :=
  match s.ctl.dest with
  | .config => { s with ctl := { s.ctl with state := .config } }
  | .faulted => noticeKick (setAttention 31 { s with ctl := { s.ctl with state := .faulted } })

/-- QUIESCE_COMPLETE (R192). -/
def execQuiesceComplete (s : State) : Host.Outcome State Fault Refusal :=
  .next (if quiesceDone s then quiesceComplete s else s)

/-- A part that is leaving FAULTED may enter CONFIG now (R193). -/
def faultedLeaveDue (s : State) : Bool := s.ctl.state == .faulted && s.ctl.leaving && writerClear s

/-- FAULTED_TO_CONFIG (R193). -/
def execFaultedToConfig (s : State) : Host.Outcome State Fault Refusal :=
  .next (if faultedLeaveDue s then enterConfig s else s)

end Sys2Proof.Machine
end

