-- ==== Sys2Proof/Machine/Engine.lean ====
section
/-! DEFINITION. The Memory Link Engine's events (chapter 9) and the Notice Block writer's (section 10.2), with the meanings of
SEND_ENTRY, READ_COMPLETION, COMPLETION_TIMEOUT, MESSAGE_OFFER and HOLDOFF_END. -/

namespace Sys2Proof.Machine

/-! ### The message and the holdoff (R181, R182) -/

/-- The writer's message may be offered: its block's write and the held updates have been taken (R181). -/
def messageOfferDue (s : State) : Bool :=
  s.notice.writer == .sending && !s.notice.offered && !s.engine.inRoom .noticeBlock && s.notice.awaitHeld.isEmpty &&
    s.ctl.state != .config

/-- The message is offered (R181). Its vector lies in configuration space, outside this model (log entry 25). -/
def offerMessage (s : State) : State :=
  offer { kind := .message, addr := 0, length := 0, bytes := [] }
    { s with notice := { s.notice with offered := true } }

/-- MESSAGE_OFFER (R181). -/
def execMessageOffer (s : State) : Host.Outcome State Fault Refusal :=
  .next (if messageOfferDue s then offerMessage s else s)

/-- The holdoff ends: IDLE, and a send begins if the pending flag is set (R182). -/
def holdoffEnd (s : State) : State := noticeKick { s with notice := { s.notice with writer := .idle, timer := none } }

/-- The holdoff timer has ended. -/
def holdoffDue (s : State) : Bool := s.notice.writer == .holdoff && s.notice.timer == some 0

/-- HOLDOFF_END (R182). -/
def execHoldoffEnd (s : State) : Host.Outcome State Fault Refusal := .next (if holdoffDue s then holdoffEnd s else s)

/-- The message has been sent: the holdoff is loaded; a holdoff of 0 ends at once (R182). -/
def messageSent (s : State) : State :=
  if s.ctl.holdoff = 0 then holdoffEnd s
  else { s with notice := { s.notice with writer := .holdoff, timer := some (micros s.ctl.holdoff.toNat) } }

/-! ### Sending (R167) -/

/-- What the sending of a write or the message leads to, once the freed entry has been refilled (R165, R168, R182). -/
def afterSend (k : ReqKind) (s : State) : State :=
  match k with
  | .outcome n => offerBacklog n s
  | .partHalf n => offerHeld n s
  | .message => messageSent s
  | .sweepRead | .fetch _ | .noticeBlock => s

/-- The oldest unsent entry `e`, standing between `before` and `after`, is sent (R164, R167): a read stays as a sent read
with its completion timer (R171), a write or the message leaves the queue. -/
def sendOne (before : List Entry) (e : Entry) (after : List Entry) (s : State) : State :=
  if e.req.kind.isRead then
    { s with
      engine := { s.engine with
        queue := before ++ { e with sent := some { tag := s.engine.nextTag, timer := Config.completionPeriods, got := [] } } :: after,
        nextTag := s.engine.nextTag + 1 },
      sentLog := { req := e.req, tag := some s.engine.nextTag } :: s.sentLog }
  else
    afterSend e.req.kind (refill { s with
      engine := { s.engine with queue := before ++ after },
      sentLog := { req := e.req, tag := none } :: s.sentLog })

/-- The link accepts a request (R167). -/
def sendEntry (s : State) : State :=
  match s.engine.queue.dropWhile fun e => e.sent.isSome with
  | [] => s
  | e :: after => sendOne (s.engine.queue.takeWhile fun e => e.sent.isSome) e after s

/-- SEND_ENTRY (R167). -/
def execSendEntry (s : State) : Host.Outcome State Fault Refusal := .next (sendEntry s)

/-! ### The end of a read (R170 to R172) -/

/-- Whether an entry is the sent read with a tag. -/
def Entry.hasTag (tag : Nat) (e : Entry) : Bool := (e.sent.map SentRead.tag) == some tag

/-- A read's entry is freed (R170), and the room wait list refills it (R166). -/
def freeRead (tag : Nat) (s : State) : State :=
  refill { s with engine := { s.engine with queue := s.engine.queue.filter fun e => !e.hasTag tag } }

/-- A read has completed: its data is handed to its requester (R172). -/
def readDone (k : ReqKind) (data : List Byte) (s : State) : State :=
  match k with
  | .sweepRead => noticeKick (endSweep (if s.active then observeAll data s else s))
  | .fetch n => noticeKick (fetchCompleted n data s)
  | .outcome _ | .partHalf _ | .noticeBlock | .message => s

/-- A sweep read that faults in ACTIVE takes the part toward FAULTED (R191). -/
def sweepFault (s : State) : State :=
  let t := { s with sweep := { s.sweep with inFlight := false } }
  if s.active then enterQuiesce .faulted { t with ctl := { t.ctl with fault := .sweepRead } } else t

/-- A read has faulted: the fault is handed to its requester (R172). -/
def readFaulted (k : ReqKind) (s : State) : State :=
  match k with
  | .sweepRead => sweepFault s
  | .fetch n => noticeKick (fetchEnded n s)
  | .outcome _ | .partHalf _ | .noticeBlock | .message => s

/-- Whether a completion is a fault of its read: an error, poisoned data, or bytes that do not continue or overrun (R170). -/
def completionFaults (r : Request) (got : List Byte) (status : CompletionStatus) (first : Nat) (data : List Byte) : Bool :=
  status != .success || first != got.length || decide (r.length < got.length + data.length)

/-- A sent read with further bytes. -/
def Entry.extend (data : List Byte) (e : Entry) : Entry :=
  { e with sent := e.sent.map fun r => { r with got := r.got ++ data } }

/-- The bytes of a completion are added to the read (R170). -/
def extendRead (tag : Nat) (data : List Byte) (s : State) : State :=
  { s with engine := { s.engine with
    queue := s.engine.queue.map fun e => if e.hasTag tag then e.extend data else e } }

/-- A completion for a sent read (R170): a fault, the read's end, or its continuation. The entry is freed first and the
end then handed over (log entry 13). -/
def completeRead (e : Entry) (tag : Nat) (status : CompletionStatus) (first : Nat) (data : List Byte) (s : State) : State :=
  let got := (e.sent.map SentRead.got).getD []
  if completionFaults e.req got status first data then readFaulted e.req.kind (freeRead tag s)
  else if got.length + data.length = e.req.length then readDone e.req.kind (got ++ data) (freeRead tag s)
  else extendRead tag data s

/-- The sent read with a tag. -/
def State.sentRead (s : State) (tag : Nat) : Option Entry := s.engine.queue.find? (Entry.hasTag tag)

/-- READ_COMPLETION (R170, R171): one that matches no sent read is discarded. -/
def execReadCompletion (tag : Nat) (status : CompletionStatus) (first : Nat) (data : List Byte) (s : State) :
    Host.Outcome State Fault Refusal :=
  match s.sentRead tag with
  | some e => .next (completeRead e tag status first data s)
  | none => .next s

/-- The completion timer of the sent read with this tag has ended (R171). -/
def completionTimeoutDue (s : State) (tag : Nat) : Bool :=
  match s.sentRead tag with
  | some e => e.sent.map SentRead.timer == some 0
  | none => false

/-- The kind of the sent read with this tag faults by completion timeout (R171). -/
def completionTimeout (tag : Nat) (s : State) : State :=
  match s.sentRead tag with
  | some e => readFaulted e.req.kind (freeRead tag s)
  | none => s

/-- COMPLETION_TIMEOUT (R171). -/
def execCompletionTimeout (tag : Nat) (s : State) : Host.Outcome State Fault Refusal :=
  .next (if completionTimeoutDue s tag then completionTimeout tag s else s)

end Sys2Proof.Machine
end

