-- ==== Sys2Proof/Machine/Clock.lean ====
section
/-! DEFINITION. The Time Base (chapter 3): one REFCLK period, and the meaning of MS_TICK. -/

namespace Sys2Proof.Machine

/-! ### One REFCLK period (R48, R50, R52) -/

/-- The Time Base takes one REFCLK period (R48): the part clock advances at every 25th, the ms tick comes at every 1000th
advance (R50). -/
def TimeBase.period (t : TimeBase) : TimeBase :=
  if t.prescale + 1 < Config.periodsPerMicro then { t with prescale := t.prescale + 1, firstPeriod := false }
  else if t.msDiv + 1 < Config.microsPerTick then
    { t with prescale := 0, clock := t.clock + 1, msDiv := t.msDiv + 1, firstPeriod := false }
  else { clock := t.clock + 1, prescale := 0, msDiv := 0, tickDue := true, firstPeriod := false }

/-- The microsecond timers of a station: its filters and its loss-of-supply-good filter (R52). -/
def Station.period (x : Station) : Station :=
  { x with
    sense0 := x.sense0.period, sense1 := x.sense1.period,
    power := { x.power with
      good := x.power.good.period, trip := x.power.trip.period, loss := tickDown x.power.loss } }

/-- The filter and the hold of a sync line (R52). -/
def SyncLine.period (x : SyncLine) : SyncLine := { x with filter := x.filter.period, hold := tickDown x.hold }

/-- The completion timer of a sent read (R171). -/
def Entry.period (e : Entry) : Entry := { e with sent := e.sent.map fun r => { r with timer := r.timer - 1 } }

/-- The timers counted in REFCLK periods, all but the probe links' (R52). -/
def timersPeriod (s : State) : State :=
  { s with
    time := s.time.period,
    sweep := { s.sweep with timer := tickDown s.sweep.timer },
    notice := { s.notice with timer := tickDown s.notice.timer },
    stations := s.stations.map Station.period,
    units := s.units.map fun u => { u with gate := tickDown u.gate },
    lineA := s.lineA.period,
    lineB := s.lineB.period,
    engine := { s.engine with queue := s.engine.queue.map Entry.period } }

/-- One REFCLK period of the whole part; the probe links sample their lines at its end (R60, R77), so an edge of PROBE that
a bit of the part itself makes reaches the units within the period (log entry 48). -/
def refclk (s : State) : State := (List.finRange 24).foldl linkTick (timersPeriod s)

/-! ### The ms tick (R50, R51) -/

/-- A channel's phase timer takes one tick. -/
def Channel.tick (x : Channel) : Channel := { x with timer := tickDown x.timer }

/-- The millisecond timers of a station and its seat sample (R50, R105). -/
def Station.tick (x : Station) : Station :=
  { x with
    ctx := { x.ctx with deadline := tickDown x.ctx.deadline },
    chans := x.chans.map Channel.tick,
    power := x.power.sample }

/-- The ms tick advances every millisecond timer at once (R50). -/
def msTick (s : State) : State :=
  { s with
    time := { s.time with tickDue := false },
    stations := s.stations.map Station.tick,
    units := s.units.map fun u => { u with window := tickDown u.window } }

/-- MS_TICK (R50). -/
def execMsTick (s : State) : Host.Outcome State Fault Refusal := .next (if s.time.tickDue then msTick s else s)

end Sys2Proof.Machine
end

