-- ==== Sys2Proof/Machine/Due.lean ====
section
/-! DEFINITION. The events of the part's own blocks that are due: what the step takes on an empty queue (log entries 1 to 3). -/

namespace Sys2Proof.Machine

/-- The command that hands a step to its owning block (R25). -/
def StepOp.command (n : StationId) : StepOp → Option Instr
  | .pause _ => some (.pause n)
  | .note _ => some (.note n)
  | .setup _ => some (.setup n)
  | .query _ => some (.query n)
  | .awaitAttention _ => some (.awaitAttention n)
  | .press _ _ _ => some (.press n)
  | .tap _ _ _ _ => some (.tap n)
  | .hold _ => some (.hold n)
  | .lift _ => some (.lift n)
  | .supply _ => some (.supply n)
  | .arm _ _ => some (.arm n)
  | .collect _ => some (.collect n)
  | .barrier _ _ _ _ => some (.barrier n)
  | .invalid => none

/-- The dispatched step of a station waits to be taken by its owning block. -/
def handedDue (s : State) (n : StationId) : List Instr :=
  match s.handedStep n with
  | some st => (st.op.command n).toList
  | none => []

/-- An event when it is due. -/
def dueIf (b : Bool) (i : Instr) : List Instr := if b then [i] else []

/-- The due events of the Station Sequencer. -/
def sequencerDue (s : State) (n : StationId) : List Instr :=
  handedDue s n ++ dueIf (retirementDue s n) (.retirement n) ++ dueIf (discardedDue s n) (.discarded n) ++
    dueIf (pauseExpiryDue s n) (.pauseExpiry n)

/-- The due events of a Probe Link Controller. -/
def linkDue (s : State) (n : StationId) : List Instr :=
  dueIf (breakBeginDue s n) (.breakBegin n) ++ dueIf (phaseDue s n .break) (.breakEnd n) ++
    dueIf (phaseDue s n .delimit) (.delimiterEnd n) ++ dueIf (phaseDue s n .send) (.querySent n) ++
    dueIf (bitErrorDue s n) (.bitError n) ++ dueIf (answerStartDue s n) (.answerStart n) ++
    dueIf (answerByteDue s n).isSome (.answerByte n) ++ dueIf (gapTimeoutDue s n) (.gapTimeout n) ++
    dueIf (noAnswerDue s n) (.noAnswer n) ++ dueIf (recoverEndDue s n) (.recoverEnd n) ++
    dueIf (lineFaultEntryDue s n) (.lineFaultEntry n) ++ dueIf (lineFaultEndDue s n) (.lineFaultEnd n) ++
    dueIf (s.st n).link.recog.isSome (.attentionRecognition n) ++ dueIf (noAttentionDue s n) (.noAttention n)

/-- The due events of one actuator channel. -/
def channelDue (s : State) (n : StationId) (c : ChannelId) : List Instr :=
  dueIf (phaseEnds s n c .delay) (.delayEnd n c) ++ dueIf (phaseEnds s n c .asserted) (.pressWidthEnd n c) ++
    dueIf (phaseEnds s n c .tapOn) (.tapOnEnd n c) ++ dueIf (phaseEnds s n c .tapOff) (.periodBoundary n c)

/-- The due events of a Seat and Supply block and of the station's input filters. -/
def supplyDue (s : State) (n : StationId) : List Instr :=
  dueIf (firstEvaluationDue s n) (.firstEvaluation n) ++ dueIf (seatChangeDue s n) (.seatChange n) ++
    dueIf (goodRiseDue s n) (.supplyGoodRise n) ++ dueIf (noSupplyGoodDue s n) (.noSupplyGood n) ++
    dueIf (tripDue s n) (.tripAccepted n) ++ dueIf (lossDue s n) (.lossOfSupplyGood n) ++
    [FilteredPin.sense0, .sense1, .supplyGood, .trip].flatMap fun p =>
      dueIf (acceptanceDue s (.station n p)) (.filterAcceptance (.station n p))

/-- The due deadlines of the shared blocks. -/
def poolDue (s : State) (n : StationId) : List Instr :=
  dueIf (noUnitDue s n) (.noUnit n) ++ dueIf (collectTimeoutDue s n) (.collectTimeout n) ++
    dueIf (barrierTimeoutDue s n) (.barrierTimeout n)

/-- The due events of a station. -/
def stationDue (s : State) (n : StationId) : List Instr :=
  sequencerDue s n ++ linkDue s n ++ (List.finRange 4).flatMap (channelDue s n) ++ supplyDue s n ++ poolDue s n

/-- The due events of a measurement unit. -/
def unitDue (s : State) (u : UnitId) : List Instr :=
  dueIf (!(s.unit u).inbox.isEmpty) (.measuredEdge u) ++ dueIf (windowDue s u) (.windowExpiry u) ++
    dueIf (gateDue s u) (.gateEnd u)

/-- The due events of a sync line. -/
def syncDue (s : State) (l : Line) : List Instr :=
  dueIf (s.line l).riseDue (.syncRise l) ++ dueIf (s.line l).fallDue (.syncFall l) ++
    dueIf (syncHoldDue s l) (.syncHoldEnd l) ++ dueIf (acceptanceDue s (.sync l)) (.filterAcceptance (.sync l))

/-- The sent reads whose completion timer has ended. -/
def timeoutsDue (s : State) : List Instr :=
  s.engine.queue.flatMap fun e =>
    match e.sent with
    | some r => dueIf (completionTimeoutDue s r.tag) (.completionTimeout r.tag)
    | none => []

/-- The due events of the part's shared blocks. -/
def partDue (s : State) : List Instr :=
  dueIf s.time.tickDue .msTick ++ dueIf (sweepTimerDue s) .sweepTimerExpiry ++ timeoutsDue s ++
    dueIf (messageOfferDue s) .messageOffer ++ dueIf (holdoffDue s) .holdoffEnd ++
    dueIf (quiesceDone s) .quiesceComplete ++ dueIf (faultedLeaveDue s) .faultedToConfig ++
    syncDue s .a ++ syncDue s .b

/-- All events that are due now. -/
def dueEvents (s : State) : List Instr :=
  partDue s ++ (List.finRange 24).flatMap (stationDue s) ++ (List.finRange 6).flatMap (unitDue s)

end Sys2Proof.Machine
end

