-- ==== Sys2Proof/Machine/Dispatch.lean ====
section
/-! DEFINITION. The meaning of every command: one arm per constructor of Instr. -/

namespace Sys2Proof.Machine

def exec (i : Instr) (s : State) : Host.Outcome State Fault Refusal :=
  match i with
  | .coldReset cause => Sys2Proof.Machine.execColdReset cause s
  | .softReset w be => Sys2Proof.Machine.execSoftReset w be s
  | .startRequest w be => Sys2Proof.Machine.execStartRequest w be s
  | .quiesce w be => Sys2Proof.Machine.execQuiesce w be s
  | .leaveFaulted w be => Sys2Proof.Machine.execLeaveFaulted w be s
  | .faultedToConfig => Sys2Proof.Machine.execFaultedToConfig s
  | .syncUseSet w be => Sys2Proof.Machine.execSyncUseSet w be s
  | .syncUseClear w be => Sys2Proof.Machine.execSyncUseClear w be s
  | .sweepPeriod w be => Sys2Proof.Machine.execSweepPeriod w be s
  | .sweep w be => Sys2Proof.Machine.execSweep w be s
  | .attentionClear w be => Sys2Proof.Machine.execAttentionClear w be s
  | .noticeMaskWrite w be => Sys2Proof.Machine.execNoticeMaskWrite w be s
  | .registerWrite reg w be => Sys2Proof.Machine.execRegisterWrite reg w be s
  | .msTick => Sys2Proof.Machine.execMsTick s
  | .sweepTimerExpiry => Sys2Proof.Machine.execSweepTimerExpiry s
  | .sendEntry => Sys2Proof.Machine.execSendEntry s
  | .readCompletion tag status first data => Sys2Proof.Machine.execReadCompletion tag status first data s
  | .completionTimeout tag => Sys2Proof.Machine.execCompletionTimeout tag s
  | .pause n => Sys2Proof.Machine.execPause n s
  | .note n => Sys2Proof.Machine.execNote n s
  | .setup n => Sys2Proof.Machine.execSetup n s
  | .query n => Sys2Proof.Machine.execQuery n s
  | .awaitAttention n => Sys2Proof.Machine.execAwaitAttention n s
  | .press n => Sys2Proof.Machine.execPress n s
  | .tap n => Sys2Proof.Machine.execTap n s
  | .hold n => Sys2Proof.Machine.execHold n s
  | .lift n => Sys2Proof.Machine.execLift n s
  | .supply n => Sys2Proof.Machine.execSupply n s
  | .arm n => Sys2Proof.Machine.execArm n s
  | .collect n => Sys2Proof.Machine.execCollect n s
  | .barrier n => Sys2Proof.Machine.execBarrier n s
  | .retirement n => Sys2Proof.Machine.execRetirement n s
  | .discarded n => Sys2Proof.Machine.execDiscarded n s
  | .pauseExpiry n => Sys2Proof.Machine.execPauseExpiry n s
  | .breakBegin n => Sys2Proof.Machine.execBreakBegin n s
  | .bitError n => Sys2Proof.Machine.execBitError n s
  | .querySent n => Sys2Proof.Machine.execQuerySent n s
  | .answerStart n => Sys2Proof.Machine.execAnswerStart n s
  | .answerByte n => Sys2Proof.Machine.execAnswerByte n s
  | .gapTimeout n => Sys2Proof.Machine.execGapTimeout n s
  | .noAnswer n => Sys2Proof.Machine.execNoAnswer n s
  | .recoverEnd n => Sys2Proof.Machine.execRecoverEnd n s
  | .probeEdge n outside => Sys2Proof.Machine.execProbeEdge n outside s
  | .lineFaultEntry n => Sys2Proof.Machine.execLineFaultEntry n s
  | .lineFaultEnd n => Sys2Proof.Machine.execLineFaultEnd n s
  | .attentionRecognition n => Sys2Proof.Machine.execAttentionRecognition n s
  | .noAttention n => Sys2Proof.Machine.execNoAttention n s
  | .delayEnd n c => Sys2Proof.Machine.execDelayEnd n c s
  | .pressWidthEnd n c => Sys2Proof.Machine.execPressWidthEnd n c s
  | .tapOnEnd n c => Sys2Proof.Machine.execTapOnEnd n c s
  | .periodBoundary n c => Sys2Proof.Machine.execPeriodBoundary n c s
  | .firstEvaluation n => Sys2Proof.Machine.execFirstEvaluation n s
  | .seatChange n => Sys2Proof.Machine.execSeatChange n s
  | .inputChange input high => Sys2Proof.Machine.execInputChange input high s
  | .filterAcceptance f => Sys2Proof.Machine.execFilterAcceptance f s
  | .supplyGoodRise n => Sys2Proof.Machine.execSupplyGoodRise n s
  | .noSupplyGood n => Sys2Proof.Machine.execNoSupplyGood n s
  | .tripAccepted n => Sys2Proof.Machine.execTripAccepted n s
  | .lossOfSupplyGood n => Sys2Proof.Machine.execLossOfSupplyGood n s
  | .measuredEdge u => Sys2Proof.Machine.execMeasuredEdge u s
  | .windowExpiry u => Sys2Proof.Machine.execWindowExpiry u s
  | .gateEnd u => Sys2Proof.Machine.execGateEnd u s
  | .noUnit n => Sys2Proof.Machine.execNoUnit n s
  | .collectTimeout n => Sys2Proof.Machine.execCollectTimeout n s
  | .barrierTimeout n => Sys2Proof.Machine.execBarrierTimeout n s
  | .syncRise l => Sys2Proof.Machine.execSyncRise l s
  | .syncFall l => Sys2Proof.Machine.execSyncFall l s
  | .syncHoldEnd l => Sys2Proof.Machine.execSyncHoldEnd l s
  | .quiesceComplete => Sys2Proof.Machine.execQuiesceComplete s
  | .messageOffer => Sys2Proof.Machine.execMessageOffer s
  | .holdoffEnd => Sys2Proof.Machine.execHoldoffEnd s
  | .breakEnd n => Sys2Proof.Machine.execBreakEnd n s
  | .delimiterEnd n => Sys2Proof.Machine.execDelimiterEnd n s

end Sys2Proof.Machine
end

