-- ==== Sys2Proof/Machine/Step.lean ====
section
/-! DEFINITION. The step of the part: the command at the front of the queue, or on an empty queue one due event, or one
REFCLK period. -/

namespace Sys2Proof.Machine

/-- On an empty queue with events due, one of them is taken; which one of several is the free choice (log entry 3). -/
def takeDue (s : State) : List Instr → Host.Outcome State Fault Refusal
  | [] => .next (refclk s)
  | [e] => exec e s
  | e :: f :: rest =>
    exec ((e :: f :: rest).getD (Config.eventChoice s.choices % (rest.length + 2)) e) { s with choices := s.choices + 1 }

/-- One step (log entries 1 to 4): the command at the front is executed on the queue's rest; on an empty queue the part
goes on by itself. -/
def step (s : State) : Host.Outcome State Fault Refusal :=
  match s.pending with
  | c :: rest => exec c { s with pending := rest }
  | [] => takeDue s (dueEvents s)

/-- The state with the command a word spells at the front of its queue. The opcode table gives no row any bits, so no word
spells a command (log entry 29). -/
def State.withFetchWord (s : State) (nbits w : Nat) : State :=
  match decodeTableWord nbits w with
  | some c => { s with pending := c :: s.pending }
  | none => s

end Sys2Proof.Machine
end

