-- ==== Sys2Proof/Safety.lean ====
section
/-! DEFINITION. The vocabulary of the statements: what a command completes with, what it leaves alone, and the invariants a
step keeps. -/

namespace Sys2Proof.Machine

/-! ### Completion -/

/-- A command answers a next state, and the state has a property. -/
def Completes (o : Host.Outcome State Fault Refusal) (P : State → Prop) : Prop := ∃ t, o = .next t ∧ P t

/-- The step `st` of station `n` has been dispatched, is of this kind, and waits to be taken by its owning block. -/
def Handed (s : State) (n : StationId) (st : InFlight) (op : StepOp) : Prop := s.handedStep n = some st ∧ st.op = op

/-- The step `st` of station `n` is of this kind and its owning block has taken it. -/
def Flying (s : State) (n : StationId) (st : InFlight) (op : StepOp) : Prop := s.flyingStep n = some st ∧ st.op = op

/-- The step with its owning block having taken it. -/
def InFlight.taken (st : InFlight) : InFlight := { st with handed := false }

/-! ### Commands -/

/-- The commands that come from outside the part: the resets, the writes of registers, what the link accepts and completes,
and what the raw inputs do. -/
def FromOutside : Instr → Prop
  | .coldReset _ | .softReset _ _ | .startRequest _ _ | .quiesce _ _ | .leaveFaulted _ _ => True
  | .syncUseSet _ _ | .syncUseClear _ _ | .sweepPeriod _ _ | .sweep _ _ => True
  | .attentionClear _ _ | .noticeMaskWrite _ _ | .registerWrite _ _ _ => True
  | .sendEntry | .readCompletion _ _ _ _ | .probeEdge _ _ | .inputChange _ _ => True
  | _ => False

/-! ### Frames -/

/-- Nothing but station `n` has changed. -/
def OnlyStation (n : StationId) (s t : State) : Prop :=
  t = { s with stations := t.stations } ∧ ∀ m, m ≠ n → t.st m = s.st m

/-- Nothing but station `n` and the engine's requests has changed. -/
def OnlyStationEngine (n : StationId) (s t : State) : Prop :=
  t = { s with stations := t.stations, engine := t.engine } ∧ ∀ m, m ≠ n → t.st m = s.st m

/-- Nothing but station `n` and the measurement units has changed. -/
def OnlyStationUnits (n : StationId) (s t : State) : Prop :=
  t = { s with stations := t.stations, units := t.units } ∧ ∀ m, m ≠ n → t.st m = s.st m

/-- Nothing but station `n`, the engine's requests and the measurement units has changed. -/
def OnlyStationEngineUnits (n : StationId) (s t : State) : Prop :=
  t = { s with stations := t.stations, engine := t.engine, units := t.units } ∧ ∀ m, m ≠ n → t.st m = s.st m

/-- Nothing but station `n`, the engine's requests, the units and the writer's list of awaited updates has changed: the
registers, the pending flag, the cohorts, the lines, the wait list and the clock stand. -/
def OnlyStationShared (n : StationId) (s t : State) : Prop :=
  t = { s with
    stations := t.stations, engine := t.engine, units := t.units,
    notice := { s.notice with awaitHeld := t.notice.awaitHeld } } ∧
  ∀ m, m ≠ n → t.st m = s.st m

/-- Every unit that reads the station's signal has one further edge to take, and no unit has changed otherwise (R122). -/
def UnitsSee (n : StationId) (sig : Signal) (high : Bool) (s t : State) : Prop :=
  ∀ u, t.unit u =
    if (s.unit u).sees n sig then
      { s.unit u with inbox := (s.unit u).inbox ++ [{ signal := sig, high := high, stamp := s.now }] }
    else s.unit u

/-! ### The end of a step (R27) and the offer of a request (R166) -/

/-- The engine after a request has been offered (R164, R166). -/
def engineOffered (s : State) (r : Request) : Engine :=
  if admits s.ctl.state r.kind then
    if s.engine.queue.length < 16 ∧ s.engine.room = [] then
      { s.engine with queue := s.engine.queue ++ [{ req := r, sent := none }] }
    else { s.engine with room := s.engine.room ++ [r] }
  else s.engine

/-- The bytes of the outcome half a step's end posts (R27). -/
def endBytes (s : State) (n : StationId) (st : InFlight) (code : Code) (result : List Byte) : List Byte :=
  outcomeBytes code (s.ctx n).retired st.start s.now result

/-- The context of a station whose step has ended (R27): POSTING, last run set, the deadline timer stopped. -/
def endedCtx (s : State) (n : StationId) (st : InFlight) (code : Code) (result : List Byte) : Context :=
  { s.ctx n with
    state := .posting, lastRun := (s.ctx n).retired, deadline := none, step := none,
    posting := .ordinary code st.noticeFlag st.disp,
    backlog := if s.engine.ownBusy n then some (.outcome (endBytes s n st code result)) else none }

/-- The outcome write of the record of sequence retired (R5, R27). -/
def outcomeWrite (s : State) (n : StationId) (bytes : List Byte) : Request :=
  { kind := .outcome n,
    addr := (s.ctx n).base + BitVec.ofNat 64 (64 * ((s.ctx n).retired.toNat % 2 ^ (s.ctx n).exp)) + 32,
    length := 32, bytes := bytes }

/-- The write of the Notice Block that a send composes, with its count (R180, R181). -/
def noticeWrite (s : State) (count : Word) : Request :=
  { kind := .noticeBlock, addr := s.ctl.base + 0x600, length := 64,
    bytes := noticeBytes count s.notice.attention s.now s.ctl.state s.ctl.fault }

/-- The step `st` has ended: its station posts, and the outcome write is offered, or kept while an earlier request of
the station has not left the queue (R27, R165). -/
def StepEnds (n : StationId) (st : InFlight) (code : Code) (result : List Byte) (s t : State) : Prop :=
  t.ctx n = endedCtx s n st code result ∧
  t.engine = if s.engine.ownBusy n then s.engine
    else engineOffered s (outcomeWrite s n (endBytes s n st code result))

/-- The step has ended, and nothing else has changed. -/
def StepEndsAlone (n : StationId) (st : InFlight) (code : Code) (result : List Byte) (s t : State) : Prop :=
  StepEnds n st code result s t ∧ OnlyStationEngine n s t ∧ t.st n = { s.st n with ctx := t.ctx n }

/-- The part is in a state in which the engine takes the stations' writes (R164). -/
def TakesWrites (t : State) : Prop := t.ctl.state = .active ∨ t.ctl.state = .quiescing

/-- The request stands unsent in the queue or waits for room (R166). -/
def RequestWaits (r : Request) (t : State) : Prop := { req := r, sent := none } ∈ t.engine.queue ∨ r ∈ t.engine.room

/-- The outcome write of the record of sequence retired stands in the queue, waits for room, or is kept by its station. -/
def OutcomeQueued (n : StationId) (bytes : List Byte) (t : State) : Prop :=
  (t.ctx n).backlog = some (.outcome bytes) ∨ RequestWaits (outcomeWrite t n bytes) t

/-- The station has offered its outcome write, or keeps it behind an earlier request of its own (R27, R165). -/
def OutcomeOffered (n : StationId) (bytes : List Byte) (t : State) : Prop := TakesWrites t → OutcomeQueued n bytes t

/-- The fetch read of the record of sequence retired (R22). -/
def fetchRead (s : State) (n : StationId) : Request :=
  { kind := .fetch n, addr := (s.ctx n).base + BitVec.ofNat 64 (64 * ((s.ctx n).retired.toNat % 2 ^ (s.ctx n).exp)),
    length := 32, bytes := [] }

/-- The station has offered its fetch read, or keeps it behind an earlier request of its own (R22, R165). -/
def FetchOffered (n : StationId) (t : State) : Prop :=
  (t.ctx n).backlog = some .fetch ∨ RequestWaits (fetchRead t n) t

/-- A station that has gone on to fetch has offered its read, and one that has gone on to pass a record over has offered its
SKIPPED outcome write (R20 to R22). -/
def NextOffered (n : StationId) (t : State) : Prop :=
  ((t.ctx n).state = .fetching → FetchOffered n t) ∧
  ((t.ctx n).state = .posting → (t.ctx n).posting = .skipped →
    OutcomeOffered n (outcomeBytes .skipped (t.ctx n).retired t.now t.now []) t)

/-- The step `st` has ended and its outcome write has been offered, whatever else its event does. -/
def StepEndsAmid (n : StationId) (st : InFlight) (code : Code) (result : List Byte) (s t : State) : Prop :=
  t.ctx n = endedCtx s n st code result ∧ OutcomeOffered n (endBytes s n st code result) t

/-! ### The part-half write (R3, R168) -/

/-- A part-half write of the station whose bytes have the property stands in the queue, waits for room, or is held behind the
station's queued one (R168). -/
def PartHalfQueued (n : StationId) (P : List Byte → Prop) (t : State) : Prop :=
  (∃ bytes, t.engine.held.get n = some bytes ∧ P bytes) ∨
  (∃ e ∈ t.engine.queue, e.req.kind = .partHalf n ∧ P e.req.bytes) ∨
  ∃ r ∈ t.engine.room, r.kind = .partHalf n ∧ P r.bytes

/-- The station has queued a part-half write whose bytes have the property, unless the part is in CONFIG or FAULTED, where
none is queued (R3). -/
def PartHalfReports (n : StationId) (P : List Byte → Prop) (t : State) : Prop := TakesWrites t → PartHalfQueued n P t

/-- The bytes are the part half of the station with the part clock as they stand, but for the last-read handover, whose change
queues no write (R3). -/
def ShowsPartHalf (n : StationId) (t : State) (bytes : List Byte) : Prop :=
  ∃ lastRead : Half, bytes = partHalfBytes { t.st n with ctx := { t.ctx n with lastRead := lastRead } } t.now

/-- The station has queued a part-half write that carries this retired count (R28, R35). -/
def RetiredReported (n : StationId) (retired : Half) (t : State) : Prop :=
  PartHalfReports n (fun bytes => (bytes.drop 4).take 2 = leBytes 2 retired.toNat) t

/-- What the queuing of a part-half write with these bytes does to the engine, by the condition of the station's earlier one
(R168): offered when there is none, replacing a waiting one in its place, merged into a queued one in its place, or held
when an outcome write of the station stands behind the queued one. -/
def PartHalfUpdates (n : StationId) (bytes : List Byte) (s t : State) : Prop :=
  (¬TakesWrites s → t.engine = s.engine) ∧
  (TakesWrites s → (∃ r ∈ s.engine.room, r.kind = .partHalf n) →
    t.engine = { s.engine with
      room := s.engine.room.map fun r => if r.kind = .partHalf n then { r with bytes := bytes } else r }) ∧
  (TakesWrites s → (∀ r ∈ s.engine.room, r.kind ≠ .partHalf n) →
    ((∀ e ∈ s.engine.queue, e.req.kind ≠ .partHalf n) →
      t.engine = engineOffered s
        { kind := .partHalf n, addr := s.ctl.base + BitVec.ofNat 64 (64 * n.1 + 32), length := 32, bytes := bytes }) ∧
    ∀ before e after, s.engine.queue = before ++ e :: after → e.req.kind = .partHalf n →
      (∀ x ∈ before ++ after, x.req.kind ≠ .partHalf n) →
      ((∀ x ∈ after, x.req.kind ≠ .outcome n) →
        t.engine = { s.engine with queue := before ++ { e with req := { e.req with bytes := bytes } } :: after }) ∧
      ((∃ x ∈ after, x.req.kind = .outcome n) →
        t.engine = { s.engine with held := s.engine.held.set n.1 (some bytes) n.2 }))

/-- The part-half write the station queues now waits for room (R28, R166, R168). -/
def ReportWaits (s : State) (n : StationId) : Prop :=
  (∃ r ∈ s.engine.room, r.kind = .partHalf n) ∨
  (TakesWrites s ∧ (∀ e ∈ s.engine.queue, e.req.kind ≠ .partHalf n) ∧
    (16 ≤ s.engine.queue.length ∨ s.engine.room ≠ []))

/-! ### The updates the message waits for (R181) -/

/-- The writer awaits exactly the stations with a held part-half update. -/
def AwaitsHeld (t : State) : Prop := ∀ n, n ∈ t.notice.awaitHeld ↔ (t.engine.held.get n).isSome = true

/-- The writer awaits the stations it awaited before, but the one whose waiting part-half write has come from the head of the
room wait list into the queue. -/
def AwaitsRefilled (s t : State) : Prop :=
  ∀ n, n ∈ t.notice.awaitHeld ↔
    n ∈ s.notice.awaitHeld ∧ ∀ r, s.engine.room.head? = some r → r.kind ≠ .partHalf n

/-- The writer awaits the stations it awaited before, but station `n` when its part-half write has entered the queue. -/
def AwaitsUntilTaken (n : StationId) (s t : State) : Prop :=
  ∀ m, m ∈ t.notice.awaitHeld ↔
    m ∈ s.notice.awaitHeld ∧ (m = n → t.engine.queue.length = s.engine.queue.length)

/-! ### Attention bits and the send (R179 to R181) -/

/-- The part is in a state in which the writer begins a send (R180, R193). -/
def MayNotify (t : State) : Prop :=
  t.ctl.state = .active ∨ t.ctl.state = .quiescing ∨ (t.ctl.state = .faulted ∧ t.ctl.leaving = false)

/-- A send has begun (R181): the count raised, the pending flag cleared, the block's write offered, the held updates
awaited, those of the event that begins it among them (log entry 10). -/
def SendBegun (s t : State) : Prop :=
  t.notice.writer = .sending ∧ t.notice.count = s.notice.count + 1 ∧ t.notice.pending = false ∧
  t.notice.offered = false ∧ AwaitsHeld t ∧ RequestWaits (noticeWrite t t.notice.count) t

/-- An event has set attention bit `i`: where the bit was clear and is admitted, a send has begun when the writer was IDLE
and the part state allows one, and the pending flag is set otherwise (R179, R180). -/
def NoticeAsked (i : Nat) (s t : State) : Prop :=
  s.notice.attention.getLsbD i = false → s.notice.mask.getLsbD i = true →
    (s.notice.writer = .idle → MayNotify t → SendBegun s t) ∧
    (s.notice.writer ≠ .idle ∨ ¬MayNotify t → t.notice.pending = true)

/-- An event has set attention bit `i` and no other: a pending flag, set before or by the bit, begins a send when the writer
was IDLE and the part state allows one; otherwise the writer goes on as it was, and a bit that was set already or is excluded
has not set the flag (R179, R180). -/
def NoticeFollows (i : Nat) (s t : State) : Prop :=
  let asks :=
    s.notice.pending = true ∨ (s.notice.attention.getLsbD i = false ∧ s.notice.mask.getLsbD i = true)
  let sends := asks ∧ s.notice.writer = .idle ∧ MayNotify t
  (sends → SendBegun s t) ∧
  (¬sends →
    t.notice.writer = s.notice.writer ∧ t.notice.count = s.notice.count ∧ (t.notice.pending = true ↔ asks))

/-! ### The request half of a record (section 1.6) -/

def StartCond.code : StartCond → Nat
  | .immediate => 0 | .edgeX => 1 | .attention => 2 | .release => 3

def Signal.code : Signal → Nat
  | .probe => 0 | .sense0 => 1 | .sense1 => 2 | .act c => 3 + c.1 | .supplyGood => 7 | .seat => 8

def EdgeCode.code : EdgeCode → Nat
  | .rising => 0 | .falling => 1 | .both => 2

def Gating.code : Gating → Nat
  | .none => 0 | .whileHigh => 1 | .whileLow => 2

/-- The line byte of a BARRIER. -/
def lineCode : Option Line → Nat
  | none => 0 | some .a => 1 | some .b => 2

/-- A channel byte, 0xFF for none of them or all. -/
def channelCode : Option ChannelId → Nat
  | none => 0xFF | some c => c.1

/-- The disposition field passes its check (R24): HALT, CONTINUE, or SKIP with a skip count. -/
def DispositionPasses (bs : List Byte) : Prop :=
  natAt bs 1 / 4 % 4 = 0 ∨ natAt bs 1 / 4 % 4 = 1 ∨ (natAt bs 1 / 4 % 4 = 2 ∧ 1 ≤ natAt bs 1 / 16)

/-- The settings of a SETUP record, each in its range. -/
def SetupGiven (bs : List Byte) (v : Settings) : Prop :=
  v.divInt = leNat bs 6 2 ∧ 3 ≤ v.divInt ∧ v.divInt ≤ 1023 ∧ v.divFrac = natAt bs 8 ∧ v.divFrac ≤ 15 ∧
  v.breakLen = natAt bs 9 ∧ 10 ≤ v.breakLen ∧ v.breakLen ≤ 30 ∧ v.delimiter = natAt bs 10 ∧ 1 ≤ v.delimiter ∧
  v.delimiter ≤ 4 ∧ v.stopBits = natAt bs 11 ∧ 1 ≤ v.stopBits ∧ v.stopBits ≤ 2 ∧ v.gapLimit = natAt bs 12 ∧
  2 ≤ v.gapLimit ∧ v.gapLimit ≤ 64 ∧ natAt bs 13 = v.short.toNat ∧ v.attnMin = natAt bs 14 ∧ 1 ≤ v.attnMin ∧
  v.attnMin ≤ 20 ∧ v.sense0 = natAt bs 15 ∧ v.sense1 = natAt bs 16 ∧ v.polarity.toNat = natAt bs 17 ∧
  v.tripFilter = natAt bs 18 ∧ 1 ≤ v.tripFilter

/-- The settings of an ARM record, each in its range, in none of the cases R124 refuses. -/
def ArmGiven (bs : List Byte) (hasCohort : Bool) (a : ArmSettings) : Prop :=
  a.kind.code = natAt bs 7 ∧ a.start.code = natAt bs 8 ∧ a.x.code = natAt bs 9 ∧ a.y.code = natAt bs 10 ∧
  a.xEdge.code = natAt bs 11 ∧ a.yEdge.code = natAt bs 12 ∧ a.gating.code = natAt bs 13 ∧
  a.window = leNat bs 14 2 ∧ 1 ≤ a.window ∧ a.gate = leNat bs 16 4 ∧ 100 ≤ a.gate ∧ a.gate ≤ 1000000 ∧
  (a.kind = .width → a.start = .edgeX ∧ a.xEdge ≠ .both) ∧ (a.kind = .frequency → a.gate ≤ a.window * 1000) ∧
  (a.start = .release → hasCohort = true)

/-- The record spells this kind with these parameters, each in its range (section 1.6, R24). The cohort and line checks of a
BARRIER are made when its block takes it (log entry 7). -/
def RecordGives (bs : List Byte) (hasCohort : Bool) : StepOp → Prop
  | .pause length => natAt bs 0 = 0x01 ∧ length = leNat bs 6 2 ∧ 1 ≤ length
  | .note bytes => natAt bs 0 = 0x02 ∧ bytes = (List.range 8).map fun i => byteAt bs (6 + i)
  | .setup v => natAt bs 0 = 0x03 ∧ SetupGiven bs v
  | .query q =>
    natAt bs 0 = 0x10 ∧ q.expectAnswer = (byteAt bs 6).getLsbD 0 ∧ q.rawCheck = (byteAt bs 6).getLsbD 1 ∧
    q.expectStatus = (byteAt bs 6).getLsbD 2 ∧ q.tag = natAt bs 7 ∧ q.tag ≤ 63 ∧ natAt bs 8 ≤ 16 ∧
    q.payload = ((List.range (natAt bs 8)).map fun i => byteAt bs (12 + i)) ∧ q.check = byteAt bs 9 ∧
    q.status = byteAt bs 10
  | .awaitAttention fresh => natAt bs 0 = 0x11 ∧ fresh = (byteAt bs 6).getLsbD 0
  | .press c delay width =>
    natAt bs 0 = 0x20 ∧ natAt bs 6 = c.1 ∧ delay = leNat bs 8 2 ∧ width = leNat bs 10 2 ∧ 1 ≤ width
  | .tap c period width count =>
    natAt bs 0 = 0x21 ∧ natAt bs 6 = c.1 ∧ period = leNat bs 8 2 ∧ 2 ≤ period ∧ width = leNat bs 10 2 ∧ 1 ≤ width ∧
    width < period ∧ count = leNat bs 12 2
  | .hold c => natAt bs 0 = 0x22 ∧ natAt bs 6 = c.1
  | .lift c => natAt bs 0 = 0x23 ∧ natAt bs 6 = channelCode c
  | .supply on => natAt bs 0 = 0x30 ∧ natAt bs 6 = on.toNat
  | .arm slot a => natAt bs 0 = 0x40 ∧ natAt bs 6 = slot.1 ∧ ArmGiven bs hasCohort a
  | .collect slot => natAt bs 0 = 0x41 ∧ natAt bs 6 = slot.1
  | .barrier line channel delay width =>
    natAt bs 0 = 0x50 ∧ natAt bs 6 = lineCode line ∧ natAt bs 7 = channelCode channel ∧ delay = leNat bs 8 2 ∧
    width = leNat bs 10 2 ∧ 1 ≤ width
  | .invalid => False

/-! ### Rounds (R100, R144, R150) -/

/-- The station stands in no cohort's arrived set (R31). -/
def NotArrived (s : State) (n : StationId) : Prop := ∀ k, ∀ a ∈ (s.cohort k).arrived, a.station ≠ n

/-- Every arrival is of another station. -/
def Cohort.ArrivedOnce (arrivals : List Arrival) : Prop := (arrivals.map Arrival.station).Nodup

/-- The outcome of a released BARRIER (R100). -/
def releaseCode (s : State) (a : Arrival) : Code :=
  match a.channel with
  | none => .ok
  | some c => if (s.chan a.station c).state = .idle then .ok else .releasePulseBusy

/-- The step of every arrival has ended with the cohort's generation and the count, its outcome write offered and its pulse
begun (R100, R150). -/
def ArrivalsReleased (k : CohortId) (arrivals : List Arrival) (s t : State) : Prop :=
  ∀ a ∈ arrivals, ∀ st, (s.ctx a.station).step = some st →
    StepEndsAmid a.station st (releaseCode s a)
      (leBytes 2 (s.cohort k).generation.toNat ++ [BitVec.ofNat 8 arrivals.length, 0] ++ leBytes 4 s.now.toNat) s t ∧
    ∀ c, a.channel = some c → (s.chan a.station c).state = .idle →
      (t.chan a.station c).state = (if a.delay = 0 then .asserted else .delay) ∧
      (t.chan a.station c).timer = some ((if a.delay = 0 then a.width else a.delay) + 1)

/-- The unit of an arrival's station that is ARMED with RELEASE has started, and the unit has changed otherwise by edges to
take alone (R125, R150). -/
def UnitReleased (u : UnitId) (arrivals : List Arrival) (s t : State) : Prop :=
  t.unit u =
    { (if (∃ a ∈ arrivals, (s.unit u).binding.map Prod.fst = some a.station) ∧ (s.unit u).state = .armed ∧
          (s.unit u).arm.start = .release then (s.unit u).begin s.now else s.unit u) with inbox := (t.unit u).inbox }

/-- The cohort after the release of its round (R151). -/
def Cohort.released (x : Cohort) : Cohort :=
  { x with arrived := [], binding := none, ready := false, generation := x.generation + 1 }

/-- A round has been released: the cohort holds no round, its generation is one higher, every arrival is released, and the
units of their stations with it (R100, R125, R150, R151). -/
def RoundReleased (k : CohortId) (arrivals : List Arrival) (s t : State) : Prop :=
  t.cohort k = (s.cohort k).released ∧ ArrivalsReleased k arrivals s t ∧ ∀ u, UnitReleased u arrivals s t

/-- The drive of the line has followed the release condition and the accepted level (R158). -/
def LineJudged (l : Line) (s t : State) : Prop :=
  let condition := t.releaseCondition l
  let d := (s.line l).drive
  (d = .pull → condition = true → (s.line l).filter.accepted = false →
    (t.line l).drive = .open ∧ (t.line l).pin = (s.line l).others) ∧
  (d = .open → condition = false → (t.line l).drive = .pull) ∧
  (d = .off ∨ d = .hold ∨ (d = .open ∧ condition = true) ∨
      (d = .pull ∧ (condition = false ∨ (s.line l).filter.accepted = true)) →
    t.line l = s.line l)

/-- A live station that had not arrived has left its cohort, and its departure has completed the round of the others: one of
no line is released in ACTIVE, and one bound to a line is ready and its line judged (R148, R149, R155). -/
def DepartureTaken (n : StationId) (s t : State) : Prop :=
  ∀ k, (s.ctx n).cohort = some k → n ∈ (s.cohort k).live → NotArrived s n → s.waitList = [] →
    let x := s.cohort k
    let left : Cohort := { x with live := x.live.filter (· != n) }
    x.arrived ≠ [] → (∀ m, (m ∈ x.live ∧ m ≠ n) ↔ m ∈ x.arrived.map Arrival.station) →
      (x.binding = none → s.ctl.state = .active → Cohort.ArrivedOnce x.arrived →
        t.cohort k = left.released ∧ ArrivalsReleased k x.arrived s t ∧
        ∀ u, (s.unit u).binding.map Prod.fst ≠ some n → UnitReleased u x.arrived s t) ∧
      ∀ l, x.binding = some l → t.cohort k = { left with ready := true } ∧ LineJudged l s t

/-! ### Waiting steps (R26, R51, R53) -/

/-- The ticks a deadline timer is loaded with: the record's field, or the kind's default where it is 0, and the extra
tick. -/
def waitTicks (st : InFlight) (default : Nat) : Nat := (if st.deadline = 0 then default else st.deadline) + 1

/-- The context of a station whose step waits with its deadline timer started. -/
def waitingCtx (s : State) (n : StationId) (st : InFlight) (default : Nat) : Context :=
  { s.ctx n with step := some st.taken, deadline := some (waitTicks st default) }

/-- Nothing has begun to halt or disable the station. -/
def Undisturbed (s : State) (n : StationId) : Prop :=
  (s.ctx n).disabling = false ∧ (s.ctx n).pendingHalt = none ∧ (s.ctx n).posting.halts = none

/-- The result bytes of a step ended from outside, zeros after them: of a QUERY its answer so far (R74, R76), of a SUPPLY ON
TRIPPED at a trip and OFF at an unseat (R115, R117), of a SUPPLY OFF not yet taken the supply state at its end, but none at a
stop (section 1.6, log entry 47), and of every other kind none (R40). -/
def outsideBytes (s t : State) (n : StationId) (st : InFlight) (code : Code) : List Byte :=
  let l := (s.st n).link
  match st.op with
  | .query _ =>
    if st.handed = false ∧ (l.state = .awaitAnswer ∨ l.state = .receive) then
      [l.status, l.len, BitVec.ofNat 8 l.count, 0xFF] ++ l.buffer
    else [0, 0, 0, 0xFF]
  | .supply true => if code = .supplyTrip then [3] else []
  | .supply false => if code = .stopped then [] else [BitVec.ofNat 8 (t.st n).power.supply.code]
  | _ => []

/-- The outcome write of the step `st`, ended from outside with `code` and the result of its kind, has been offered. -/
def OutsideOutcomeOffered (n : StationId) (st : InFlight) (code : Code) (s t : State) : Prop :=
  OutcomeOffered n (endBytes s n st code (outsideBytes s t n st code)) t

/-- The link has entered RECOVER: released, and waiting for the gap limit when the line is recessive, which it is unless
the handset drives it low (R75). -/
def Recovering (n : StationId) (s t : State) : Prop :=
  (t.st n).link.state = .recover ∧ (t.st n).link.drives = false ∧
  (t.st n).link.wait = if (s.st n).link.outside = .low then none else some (8 * (s.st n).link.copy.gapLimit)

/-- What the link does when the step `st` is ended from outside (R76): a QUERY in BREAK to RECEIVE takes it into RECOVER, a
waiting one is dropped, and any other step, one that its block has not taken among them (log entry 7), leaves it as it is. -/
def LinkCut (n : StationId) (st : InFlight) (s t : State) : Prop :=
  let l := (s.st n).link
  let exchanging :=
    l.state = .break ∨ l.state = .delimit ∨ l.state = .send ∨ l.state = .awaitAnswer ∨ l.state = .receive
  (∀ q, st.op = .query q → st.handed = false →
    (exchanging → Recovering n s t) ∧ (¬exchanging → (t.st n).link = { l with waiting := false })) ∧
  ((∀ q, st.op ≠ .query q) ∨ st.handed = true → (t.st n).link = l)

/-- A station that stays live has left the arrived set of cohort `k` before its round was released (R152, R154): a round left
without arrivals has ended, one bound to a line is not ready any more, and the lines have taken the change (R149, R158). -/
def ArrivalWithdrawn (n : StationId) (k : CohortId) (s t : State) : Prop :=
  let x := s.cohort k
  let y := t.cohort k
  y.arrived = (x.arrived.filter fun a => a.station != n) ∧ y.live = x.live ∧ y.generation = x.generation ∧
  (y.arrived = [] → y.binding = none ∧ y.ready = false) ∧
  (y.arrived ≠ [] → y.binding = x.binding ∧ y.ready = (x.ready && x.binding.isNone)) ∧
  ∀ l, LineJudged l s t

/-- What the owning block does when a stop, a trip or an unseat ends the step `st`: the link's part (R76), an attached PRESS
lifts its channel (R92), a waiting ARM leaves the unit wait list (R136), a COLLECT abandons its unit, which returns to FREE or
goes to the head of the list (R140), and a BARRIER leaves the arrived set, its station staying live (R154). -/
def BlockCut (n : StationId) (st : InFlight) (s t : State) : Prop :=
  LinkCut n st s t ∧
  (∀ c delay width, st.op = .press c delay width → st.handed = false → st.attached = true →
    t.chan n c = Channel.initial ∧ ∀ d, d ≠ c → t.chan n d = s.chan n d) ∧
  ((∀ c delay width, st.op ≠ .press c delay width) ∨ st.handed = true ∨ st.attached = false →
    ∀ c, t.chan n c = s.chan n c) ∧
  (∀ slot arm, st.op = .arm slot arm → st.handed = false →
    (∀ w ∈ t.waitList, w.station ≠ n) ∧
    ((∀ u, (s.unit u).state ≠ .free) → t.waitList = s.waitList.filter fun w => w.station != n)) ∧
  (∀ slot u, st.op = .collect slot → s.slotUnit n slot = some u →
    (s.waitList = [] → t.unit u = MeasUnit.initial) ∧
    ∀ w rest st', s.waitList = w :: rest → s.ctl.state = .active → (∀ v, (s.unit v).state ≠ .free) → w.station ≠ n →
      (s.ctx w.station).state = .waitingUnit → (s.ctx w.station).step = some st' →
      t.waitList = rest ∧ (t.unit u).binding = some (w.station, w.slot) ∧ (t.unit u).arm = w.arm) ∧
  ∀ line channel delay width k, st.op = .barrier line channel delay width → st.handed = false →
    (s.ctx n).cohort = some k →
    (∀ a ∈ (t.cohort k).arrived, a.station ≠ n) ∧
    ((∃ a ∈ (s.cohort k).arrived, a.station = n) → n ∈ (s.cohort k).live → ArrivalWithdrawn n k s t)

/-- The step `st` ended from outside with `code`, its block's part done and its outcome write offered, its station on the way
to HALTED with reason `r` (R33, R40). -/
def CutTowardHalt (n : StationId) (st : InFlight) (code : Code) (r : HaltReason) (s t : State) : Prop :=
  (t.ctx n).state = .posting ∧ (t.ctx n).posting = .ordinary code st.noticeFlag st.disp ∧
  (t.ctx n).pendingHalt = some r ∧ (t.ctx n).lastRun = (s.ctx n).retired ∧ (t.ctx n).taken = (s.ctx n).taken ∧
  (t.ctx n).retired = (s.ctx n).retired ∧ (t.ctx n).step = none ∧ (t.ctx n).deadline = none ∧
  OutsideOutcomeOffered n st code s t ∧ BlockCut n st s t

/-- The station stands in neither set of its cohort (R155). -/
def OutOfCohort (n : StationId) (t : State) : Prop :=
  ∀ k, (t.ctx n).cohort = some k → n ∉ (t.cohort k).live ∧ ∀ a ∈ (t.cohort k).arrived, a.station ≠ n

/-- The station has entered HALTED for this reason (R31): channels lifted, units freed, the unit wait list and its cohort's
sets left (R141, R145), its attention bit set with the notice it asks for (R179), a part-half write queued (R3). -/
def HasHalted (n : StationId) (r : HaltReason) (s t : State) : Prop :=
  (t.ctx n).state = .halted ∧ (t.ctx n).halt = r ∧ (t.ctx n).skipDebt = 0 ∧ (t.ctx n).badMark = false ∧
  (t.ctx n).step = none ∧ (t.ctx n).deadline = none ∧ (t.ctx n).pendingHalt = none ∧
  (∀ c, t.chan n c = Channel.initial) ∧ (∀ u slot, (t.unit u).binding ≠ some (n, slot)) ∧
  (∀ w ∈ t.waitList, w.station ≠ n) ∧ OutOfCohort n t ∧
  t.notice.attention.getLsbD n = true ∧ NoticeAsked n s t ∧ PartHalfReports n (ShowsPartHalf n t) t

/-- The station has arrived in IDLE, its abort complete and a part-half write queued (R37, R3). -/
def HasArrivedIdle (n : StationId) (t : State) : Prop :=
  (t.ctx n).state = .idle ∧ (t.ctx n).skipDebt = 0 ∧ (t.ctx n).badMark = false ∧ (t.ctx n).step = none ∧
  (t.ctx n).posting = .none ∧ (t.ctx n).disabling = false ∧ (t.ctx n).pendingHalt = none ∧
  PartHalfReports n (ShowsPartHalf n t) t

/-- A disable has acted on what the station holds (R13, R103, R142): supply OFF, channels lifted, units freed, its entry gone
from the unit wait list. -/
def SwitchedOff (n : StationId) (t : State) : Prop :=
  (t.st n).power.supply = .off ∧ (∀ c, t.chan n c = Channel.initial) ∧
  (∀ u slot, (t.unit u).binding ≠ some (n, slot)) ∧ ∀ w ∈ t.waitList, w.station ≠ n

/-- A step of the station is in flight. -/
def InStep (s : State) (n : StationId) (st : InFlight) : Prop :=
  (s.ctx n).step = some st ∧
  ((s.ctx n).state = .running ∨ (s.ctx n).state = .waitingUnit ∨ (s.ctx n).state = .atBarrier)

/-- The quiesce has reached a station that was not IDLE nor on its way there (R13, R37 to R43, R103, R118, R142, R162): supply
OFF, channels lifted, units and cohort left; READY or HALTED it is IDLE, a fetch phase ends unless its read has been sent or,
by log entry 15, is kept, a step ends with STOPPED, its link cut (R76) and its outcome write offered, and a posting goes
on. -/
def Quiesced (n : StationId) (s t : State) : Prop :=
  (s.ctx n).state ≠ .idle → (s.ctx n).disabling = false →
    let c := s.ctx n
    let d := t.ctx n
    let kept := d.taken = c.taken ∧ d.retired = c.retired
    let reading := (∃ e ∈ s.engine.queue, e.req.kind = .fetch n ∧ e.sent.isSome = true) ∨ c.backlog = some .fetch
    SwitchedOff n t ∧ OutOfCohort n t ∧
    (c.state = .ready ∨ c.state = .halted →
      HasArrivedIdle n t ∧ kept ∧ d.halt = if c.state = .halted then c.halt else .none) ∧
    (c.state = .fetching → reading → d.state = .fetching ∧ d.disabling = true ∧ kept) ∧
    (c.state = .fetching → ¬reading →
      HasArrivedIdle n t ∧ d.halt = .none ∧ d.taken = c.taken - 1 ∧ d.retired = c.retired) ∧
    (∀ st, InStep s n st →
      d.state = .posting ∧ d.posting = .ordinary .stopped st.noticeFlag st.disp ∧ d.disabling = true ∧
      d.lastRun = c.retired ∧ d.step = none ∧ d.deadline = none ∧ kept ∧ OutsideOutcomeOffered n st .stopped s t ∧
      LinkCut n st s t) ∧
    (c.state = .posting → d.state = .posting ∧ d.posting = c.posting ∧ d.disabling = true ∧ kept)

/-! ### The sweep (R9, R170) -/

/-- The sent sweep read with this tag completes in ACTIVE with these bytes at `first`, which follow the bytes it has got
already; together they are the directory `data` (R9, R170). -/
def SweepArrives (s : State) (tag first : Nat) (last data : List Byte) : Prop :=
  s.ctl.state = .active ∧ data.length = 1536 ∧
  ∃ e r, s.sentRead tag = some e ∧ e.sent = some r ∧ e.req.kind = .sweepRead ∧ e.req.length = 1536 ∧
    first = r.got.length ∧ data = r.got ++ last

/-- No station waits for a unit or stands at a barrier. -/
def NobodyWaits (s : State) : Prop := s.waitList = [] ∧ ∀ k, (s.cohort k).arrived = []

/-- The host half that a sweep has read for a station (R9). -/
def observed (data : List Byte) (n : StationId) : HostHalf := hostHalfOf ((data.drop (64 * n.1)).take 32)

/-- The sweep asks nothing of the other stations but to take a handover count that passes. -/
def OthersCalm (s : State) (n : StationId) (data : List Byte) : Prop :=
  ∀ m, m ≠ n →
    ((s.ctx m).state = .idle ∧ (observed data m).enabled = false) ∨
    ((s.ctx m).state ≠ .idle ∧ (observed data m).enabled = true ∧ (observed data m).stop = (s.ctx m).stopSeen ∧
      (observed data m).resume = (s.ctx m).resumeSeen ∧ (s.ctx m).handoverPasses (observed data m).handover = true)

/-- The sweep leaves the other stations as they stand: calm, with the handover counts they have read already. -/
def OthersStill (s : State) (n : StationId) (data : List Byte) : Prop :=
  OthersCalm s n data ∧ ∀ m, m ≠ n → (s.ctx m).state ≠ .idle →
    (observed data m).handover = (s.ctx m).lastRead ∧ (s.ctx m).badMark = false

/-- The station stands in the live set of its cohort, and a round bound to a line that it has joined is not ready (R11, R34,
R149, R156); where the event asks no more of the cohorts, the round's line is judged, and a line in PULL or OPEN pulls, since
a round bound to it is not ready (R158). A READY station halted and resumed at once has had its line judged twice. -/
def JoinsLive (calm : Prop) (n : StationId) (s t : State) : Prop :=
  ∀ k, (t.ctx n).cohort = some k →
    n ∈ (t.cohort k).live ∧ ∀ l, (s.cohort k).binding = some l → (t.cohort k).ready = false ∧
      (calm → ((s.ctx n).state ≠ .ready → LineJudged l s t) ∧
        ((s.cohort k).arrived ≠ [] → (s.line l).drive = .pull ∨ (s.line l).drive = .open →
          (t.line l).drive = .pull ∧ (t.line l).pin = false))

/-- The counts an enable and a BAD_ENTRY take from the host half (R11, R12). -/
def CountsTaken (h : HostHalf) (c : Context) : Prop :=
  c.retired = h.origin ∧ c.lastRun = h.origin ∧ c.stopSeen = h.stop ∧ c.resumeSeen = h.resume

/-- The station has been enabled by the host half (R11). -/
def EnabledBy (n : StationId) (h : HostHalf) (t : State) : Prop :=
  CountsTaken h (t.ctx n) ∧ (t.ctx n).base = h.base ∧ (t.ctx n).exp = h.exp ∧ some (t.ctx n).cohort = cohortOf h.cohort ∧
  (t.ctx n).settings = Settings.default ∧ (t.ctx n).skipDebt = 0 ∧ (t.ctx n).badMark = false ∧ (t.st n).link.latch = none

/-- An enable that passes its checks (R11), its cohort's live set joined (R145), with the handover count taken after it (R16):
READY, or fetching the first record handed over, or halted with BAD_HANDOVER. -/
def Enables (calm : Prop) (n : StationId) (h : HostHalf) (s t : State) : Prop :=
  (h.handover = h.origin →
    EnabledBy n h t ∧ JoinsLive calm n s t ∧ (t.ctx n).state = .ready ∧ (t.ctx n).halt = .none ∧ (t.ctx n).taken = h.origin ∧
    (t.ctx n).lastRead = h.origin ∧ PartHalfReports n (ShowsPartHalf n t) t) ∧
  ((s.ctx n).disabling = false → h.handover ≠ h.origin → (h.handover - h.origin).toNat ≤ 2 ^ h.exp →
    EnabledBy n h t ∧ JoinsLive calm n s t ∧ (t.ctx n).state = .fetching ∧ (t.ctx n).halt = .none ∧ (t.ctx n).taken = h.origin + 1 ∧
    (t.ctx n).lastRead = h.handover ∧ FetchOffered n t ∧ RetiredReported n h.origin t) ∧
  ((s.ctx n).disabling = false → 2 ^ h.exp < (h.handover - h.origin).toNat →
    EnabledBy n h t ∧ HasHalted n .badHandover s t ∧ (t.ctx n).taken = h.origin ∧ (t.ctx n).lastRead = h.origin)

/-- The station's fetch read stands in the queue, and not as the read with this tag. -/
def FetchStands (s : State) (n : StationId) (tag : Nat) : Prop :=
  ∃ x ∈ s.engine.queue, x.req.kind = .fetch n ∧ x.hasTag tag = false

/-- The station's fetch read does not stand in the queue, nor does the next entry that leaves it bring it in. -/
def FetchMissing (s : State) (n : StationId) : Prop :=
  (∀ x ∈ s.engine.queue, x.req.kind ≠ .fetch n) ∧ ∀ r, s.engine.room.head? = some r → r.kind ≠ .fetch n

/-- A READY station of context `c` has taken a passing handover count (R16, R20): it is READY with nothing to fetch, or
fetches, or passes its next record over. -/
def TakesNext (c : Context) (handover : Half) (d : Context) : Prop :=
  d.lastRead = handover ∧ d.badMark = false ∧ d.retired = c.retired ∧
  (handover = c.taken → d.state = .ready ∧ d.taken = c.taken) ∧
  (handover ≠ c.taken → c.skipDebt = 0 → d.state = .fetching ∧ d.taken = c.taken + 1) ∧
  (handover ≠ c.taken → c.skipDebt ≠ 0 → d.state = .posting ∧ d.posting = .skipped ∧ d.taken = c.taken + 1)

/-- The command is a fault of the sent read `e` (R170, R171): an error or poisoned data, bytes that do not continue it or
overrun it, or the end of its completion timer. -/
def ReadFaults (i : Instr) (tag : Nat) (e : Entry) (r : SentRead) : Prop :=
  (i = .completionTimeout tag ∧ r.timer = 0) ∨
  (∃ first data, i = .readCompletion tag .error first data ∨ i = .readCompletion tag .poisoned first data) ∨
  ∃ first data, i = .readCompletion tag .success first data ∧
    (first ≠ r.got.length ∨ e.req.length < r.got.length + data.length)

/-- What an undisturbed station with no step in flight does at a trip or an unseat (R33): READY it halts, FETCHING it waits
for its read to end or halts when there is none to wait for (log entry 15), POSTING it posts first; a halt at once may
complete the round of others (R155). -/
def HaltsAtRest (n : StationId) (r : HaltReason) (s t : State) : Prop :=
  ((s.ctx n).state = .ready →
    HasHalted n r s t ∧ DepartureTaken n s t ∧ (t.ctx n).taken = (s.ctx n).taken) ∧
  ((s.ctx n).state = .fetching →
    if s.fetchLeft n then t.ctx n = { s.ctx n with pendingHalt := some r }
    else HasHalted n r s t ∧ DepartureTaken n s t ∧ (t.ctx n).taken = (s.ctx n).taken - 1) ∧
  ((s.ctx n).state = .posting → t.ctx n = { s.ctx n with pendingHalt := some r })

/-! ### Input filters (R56, R57, R58) -/

/-- The filter time of a station's input in REFCLK periods (R57). -/
def filterTime (v : Settings) : FilteredPin → Nat
  | .sense0 => 25 * v.sense0
  | .sense1 => 25 * v.sense1
  | .supplyGood => 2500
  | .trip => 250 * v.tripFilter

/-- A filter whose input has this level now: taken as found in the first period after a reset (R58); later a candidate
that has lasted stays, a younger one is dropped by the accepted level, and the opposite level begins one (R56). -/
def filterLevel (f : Filter) (firstPeriod level : Bool) (time : Nat) : Filter :=
  if firstPeriod then { raw := level, accepted := level, cand := none }
  else { raw := level, accepted := f.accepted,
         cand := if f.cand = some 0 then some 0 else if level = f.accepted then none else some (f.cand.getD time) }

/-- A filter that has accepted its candidate (R56); a raw level that has returned begins the next. -/
def filterAccepted (f : Filter) (time : Nat) : Filter :=
  { raw := f.raw, accepted := !f.accepted, cand := if f.raw = f.accepted then some time else none }

/-! ### One REFCLK period (R52, R60, R61, R77) -/

/-- A filter after one REFCLK period (R52). -/
def filterAged (f : Filter) : Filter := { f with cand := f.cand.map (· - 1) }

/-- A sync line after one REFCLK period (R52). -/
def lineAged (x : SyncLine) : SyncLine := { x with filter := filterAged x.filter, hold := x.hold.map (· - 1) }

/-- The bit timer runs: in a phase of a query until its last bit has ended, within a byte of an answer, and while a gap or a
RECOVER wait counts. -/
def BitTimerRuns (l : Link) : Prop :=
  ((l.state = .break ∨ l.state = .delimit ∨ l.state = .send) ∧ l.bitEnd = false) ∨
  (l.state = .receive ∧ (l.inByte = true ∨ ∃ k, l.wait = some (k + 1))) ∨
  (l.state = .recover ∧ ∃ k, l.wait = some (k + 1))

/-- The next sample interval has begun: the fraction is added, and at 16 sixteenths the interval is one period longer (R60). -/
def intervalBegun (l : Link) : Link :=
  if l.acc + l.copy.divFrac < 16 then { l with acc := l.acc + l.copy.divFrac, left := l.copy.divInt }
  else { l with acc := l.acc + l.copy.divFrac - 16, left := l.copy.divInt + 1 }

/-- What the end of a sample interval makes of a link (R60, R61, R67, R70, R71): a bit is sampled eight times, samples 3 to 5
vote at sample 5; a bit being sent is compared with its readback, and after its last sample the next bit begins or the phase
has ended; a bit received joins its byte, and the last stop bit completes the byte and begins the gap count. -/
def IntervalEnds (l m : Link) : Prop :=
  let votes := if 2 ≤ l.sample ∧ l.sample ≤ 4 then l.votes ++ [l.high] else l.votes
  let value := decide (2 ≤ votes.count true)
  let sampled := intervalBegun { l with sample := l.sample + 1, votes := votes }
  ((l.state = .break ∨ l.state = .delimit ∨ l.state = .send) →
    (l.sample ≠ 7 → m = { sampled with mismatch := l.mismatch || (l.sample == 4 && l.bits.head? != some value) }) ∧
    (l.sample = 7 → l.mismatch = true ∨ l.bits.length ≤ 1 → m = { l with bitEnd := true }) ∧
    (l.sample = 7 → l.mismatch = false → 1 < l.bits.length →
      m = intervalBegun { l with bits := l.bits.tail, sample := 0, votes := [] })) ∧
  (l.state = .receive → l.inByte = true →
    (l.sample = 7 → m = intervalBegun { l with sample := 0, votes := [] }) ∧
    (l.sample ≠ 7 → l.sample ≠ 4 → m = sampled) ∧
    (l.sample = 4 → l.rxBits.length ≠ 8 + l.copy.stopBits → m = { sampled with rxBits := l.rxBits ++ [value] }) ∧
    (l.sample = 4 → l.rxBits.length = 8 + l.copy.stopBits →
      m = { sampled with
        inByte := false, rxBits := [], done := some (l.rxBits ++ [value]), wait := some (3 + 8 * l.copy.gapLimit) })) ∧
  (l.state = .recover ∨ (l.state = .receive ∧ l.inByte = false) → m = intervalBegun { l with wait := l.wait.map (· - 1) })

/-- A link, whose monitor has seen the level of its line, after one REFCLK period: the level is one period older or a new one
has begun (R77), and the bit timer has gone on (R60, R61). -/
def LinkAged (l m : Link) : Prop :=
  m.mon.high = m.high ∧
  (m.high = l.high → m.mon = { l.mon with age := l.mon.age + 1 }) ∧
  (m.high ≠ l.high → m.mon.age = 0 ∧ m.mon.beganIn = l.state) ∧
  (¬BitTimerRuns l → m = { l with mon := m.mon }) ∧
  (BitTimerRuns l → 1 < l.left → m = { l with left := l.left - 1, mon := m.mon }) ∧
  (BitTimerRuns l → l.left ≤ 1 → ∃ k, IntervalEnds l k ∧ m = { k with mon := m.mon })

/-! ### The probe link -/

/-- What a change of the level on PROBE makes of a link `b` that has noted the new level: a falling edge is taken as the
answer's first in AWAIT_ANSWER (R69), begins the next byte between two bytes in RECEIVE (R60, R61, R70, R71), and discards the
RECOVER count, which a rising edge begins again (R75); nothing else changes but by a recognition. -/
def LevelTaken (b m : Link) : Prop :=
  (b.state = .awaitAnswer → b.high = false → m = { b with startDue := true }) ∧
  (b.state = .receive → b.inByte = false → b.high = false →
    m = intervalBegun { b with inByte := true, rxBits := [], acc := 0, wait := none, sample := 0, votes := [] }) ∧
  (b.state = .recover → b.high = false → m = { b with wait := none }) ∧
  (b.state = .recover → b.high = true → m = intervalBegun { b with wait := some (8 * b.copy.gapLimit) }) ∧
  (b.state ≠ .recover → b.high = true ∨ (b.state ≠ .awaitAnswer ∧ (b.state = .receive → b.inByte = true)) →
    m = { b with recog := m.recog })

/-- The break has begun with the settings copied, and the line is low but for one held high from outside (R60, R63, R64,
R67). -/
def BreakBegun (n : StationId) (s t : State) : Prop :=
  (t.st n).link.state = .break ∧ (t.st n).link.copy = (s.ctx n).settings.linkCopy ∧
  (t.st n).link.bits = List.replicate (s.ctx n).settings.breakLen false ∧ (t.st n).link.waiting = false ∧
  (t.st n).link.sample = 0 ∧ (t.st n).link.high = decide ((s.st n).link.outside = .high) ∧
  (t.st n).link.mon.high = (t.st n).link.high ∧
  ((s.ctx n).settings.divFrac < 16 →
    (t.st n).link.acc = (s.ctx n).settings.divFrac ∧ (t.st n).link.left = (s.ctx n).settings.divInt) ∧
  ((s.st n).link.mon.high = true →
    if (s.st n).link.outside = .high then t.units = s.units else UnitsSee n .probe false s t)

/-- Reception has ended with an error: RECOVER, and the step ended (R70, R71, R72). -/
def ReceptionFails (n : StationId) (st : InFlight) (code : Code) (result : List Byte) (s t : State) : Prop :=
  StepEnds n st code result s t ∧ OnlyStationEngineUnits n s t ∧ Recovering n s t

/-- Nothing has changed but the station's link, which is `m` now. -/
def LinkBecomes (n : StationId) (m : Link) (s t : State) : Prop :=
  OnlyStation n s t ∧ t.st n = { s.st n with link := m }

/-! ### Actuator channels -/

/-- Nothing has changed but one channel, the station's step, the engine's requests and the units. -/
def OnlyChannel (n : StationId) (c : ChannelId) (s t : State) : Prop :=
  OnlyStationEngineUnits n s t ∧ t.st n = { s.st n with ctx := t.ctx n, chans := (t.st n).chans } ∧
  ∀ d, d ≠ c → t.chan n d = s.chan n d

/-- The output of the channel has changed to `high`, or has not changed, as `change` says (R87, R122). -/
def OutputEdge (n : StationId) (c : ChannelId) (change high : Bool) (s t : State) : Prop :=
  if change then UnitsSee n (.act c) high s t else t.units = s.units

/-! ### Register writes (R184, R186) -/

/-- The SWEEP_PERIOD field a CONTROL write carries: bytes 2 and 3, a disabled byte carrying the present value (R184). -/
def periodCarried (w : Word) (be : BitVec 4) (old : Half) : Half :=
  (if be.getLsbD 3 then w.extractLsb' 24 8 else old.extractLsb' 8 8) ++
    (if be.getLsbD 2 then w.extractLsb' 16 8 else old.extractLsb' 0 8)

/-- CONTROL as stored by a write whose byte 0 is enabled (R186): the three flags as written, a nonzero period. -/
def controlStored (w : Word) (be : BitVec 4) (c : Control) : Control :=
  { c with
    run := w.getLsbD 0, useA := w.getLsbD 2, useB := w.getLsbD 3,
    period := if periodCarried w be c.period = 0 then c.period else periodCarried w be c.period }

/-- Bit i of a register after a write with byte enables (R184). -/
def bitWritten (w : Word) (be : BitVec 4) (old : Word) (i : Nat) : Bool :=
  if be.getLsbD (i / 8) then w.getLsbD i else old.getLsbD i

/-- The rows of the table that write CONTROL (R186). -/
def controlRows (w : Word) (be : BitVec 4) : List Instr :=
  [.startRequest w be, .quiesce w be, .leaveFaulted w be, .syncUseSet w be, .syncUseClear w be, .sweepPeriod w be]

/-! ### Invariants -/

/-- The request queue holds up to 16 entries (R164). -/
def QueueWithinRoom (s : State) : Prop := s.engine.queue.length ≤ 16

/-- Unlisted bits of ATTENTION and NOTICE_MASK read as 0, and SWEEP_PERIOD lies in 1..65535 (R177, R179, R7). -/
def RegistersLegal (s : State) : Prop :=
  s.notice.attention &&& 0x7F000000 = 0 ∧ s.notice.mask &&& 0x7F000000 = 0 ∧ s.ctl.period ≠ 0

/-- The divisions of the Time Base stay in range (R48, R50). -/
def TimeBaseLegal (s : State) : Prop := s.time.prescale < 25 ∧ s.time.msDiv < 1000

/-- What a station's state says of its counts and of its step in flight (R19). -/
def Context.Tallied (c : Context) : Prop :=
  match c.state with
  | .idle | .ready | .halted => c.taken = c.retired ∧ c.step = none ∧ c.posting = .none
  | .fetching => c.taken = c.retired + 1 ∧ c.step = none ∧ c.posting = .none
  | .running | .waitingUnit | .atBarrier => c.taken = c.retired + 1 ∧ c.step.isSome = true ∧ c.posting = .none
  | .posting =>
    c.step = none ∧
    match c.posting with
    | .none => False
    | .ordinary _ _ _ | .skipped => c.taken = c.retired + 1
    | .mismatch | .reported _ _ => c.taken = c.retired
    | .discard _ => c.taken = c.retired ∨ c.taken = c.retired + 1

/-- Every station's counts agree with its state (R19). -/
def AllTallied (s : State) : Prop := ∀ n, (s.ctx n).Tallied

/-- A sync line is out of OFF exactly while the part is ACTIVE and the line's use flag is set (R157). -/
def LinesFollowUse (s : State) : Prop :=
  ∀ l, (s.line l).drive ≠ .off ↔ s.ctl.state = .active ∧ s.ctl.useFlag l = true

/-- How many part-half writes of a station stand in the queue or wait for room. -/
def partHalfCount (s : State) (n : StationId) : Nat :=
  (s.engine.queue.filter fun e => e.req.kind == .partHalf n).length +
    (s.engine.room.filter fun r => r.kind == .partHalf n).length

/-- A station has at most one part-half write in the queue or waiting for room (R165, R168). -/
def PartHalvesSingle (s : State) : Prop := ∀ n, partHalfCount s n ≤ 1

end Sys2Proof.Machine
end

