-- ==== Sys2Proof/Certificates/Slice0/Obligations.lean ====
section
/-! DEFINITION. The statements for the provers. -/

open Sys2Proof Sys2Proof.Machine

/-! ### The step -/

/-- A step takes the command at the front of the queue and executes it on the queue's rest. -/
def Obligations.StepTakesFrontCommand : Prop :=
  ∀ (s : State) (c : Instr) (rest : List Instr), s.pending = c :: rest → step s = exec c { s with pending := rest }

/-- On an empty queue a step takes one of the events that are due, and one REFCLK period when none is; the events are the
part's own, never a command of the host, of a pin or of the link, and each of them is due when its own condition holds: a
timer that has expired, a step handed to its block, an accepted edge, a level or a run that has lasted, a phase of a link or
a channel that has ended, a posting whose write has been taken, a message or a change of the part state that may be made
(the model's choice, log entries 2, 3, 8 and 23). -/
def Obligations.EmptyQueueTakesDueEventOrPeriod : Prop :=
  (∀ s : State, s.pending = [] →
    (dueEvents s = [] → step s = .next (refclk s)) ∧
    (dueEvents s ≠ [] → ∃ e ∈ dueEvents s, step s = exec e s ∨ step s = exec e { s with choices := s.choices + 1 })) ∧
  (∀ s : State, ∀ e ∈ dueEvents s, ¬FromOutside e) ∧
  (∀ s : State,
    (.msTick ∈ dueEvents s ↔ s.time.tickDue = true) ∧
    (s.ctl.state = .active → s.sweep.timer = some 0 → .sweepTimerExpiry ∈ dueEvents s) ∧
    (s.notice.writer = .holdoff → s.notice.timer = some 0 → .holdoffEnd ∈ dueEvents s) ∧
    (s.notice.writer = .sending → s.notice.offered = false → s.engine.inRoom .noticeBlock = false →
      s.notice.awaitHeld = [] → s.ctl.state ≠ .config → .messageOffer ∈ dueEvents s) ∧
    (∀ e ∈ s.engine.queue, ∀ r, e.sent = some r → s.sentRead r.tag = some e → r.timer = 0 →
      .completionTimeout r.tag ∈ dueEvents s) ∧
    (s.ctl.state = .quiescing → (∀ n, (s.ctx n).state = .idle) → s.engine.queue = [] → s.engine.room = [] →
      (∀ n, s.engine.held.get n = none) → s.notice.writer ≠ .sending → .quiesceComplete ∈ dueEvents s) ∧
    (s.ctl.state = .faulted → s.ctl.leaving = true → writerClear s = true → .faultedToConfig ∈ dueEvents s) ∧
    (∀ l, ((s.line l).riseDue = true → .syncRise l ∈ dueEvents s) ∧ ((s.line l).fallDue = true → .syncFall l ∈ dueEvents s) ∧
      ((s.line l).drive = .hold → (s.line l).hold = some 0 → .syncHoldEnd l ∈ dueEvents s) ∧
      ((s.line l).filter.cand = some 0 → .filterAcceptance (.sync l) ∈ dueEvents s)) ∧
    ∀ u, ((s.unit u).inbox ≠ [] → .measuredEdge u ∈ dueEvents s) ∧
      ((s.unit u).window = some 0 → .windowExpiry u ∈ dueEvents s) ∧
      ((s.unit u).state = .running → (s.unit u).gate = some 0 → .gateEnd u ∈ dueEvents s)) ∧
  ∀ (s : State) (n : StationId),
    let c := s.ctx n
    let l := (s.st n).link
    let w := (s.st n).power
    let taken := c.state = .posting ∧ c.backlog = none ∧ s.engine.inRoom (.outcome n) = false
    (∀ st i, s.handedStep n = some st → st.op.command n = some i → i ∈ dueEvents s) ∧
    (∀ st len, Flying s n st (.pause len) → c.deadline = some 0 → .pauseExpiry n ∈ dueEvents s) ∧
    (∀ st fresh, Flying s n st (.awaitAttention fresh) → c.deadline = some 0 → .noAttention n ∈ dueEvents s) ∧
    (∀ st slot, Flying s n st (.collect slot) → c.deadline = some 0 → .collectTimeout n ∈ dueEvents s) ∧
    (c.state = .waitingUnit → c.deadline = some 0 → .noUnit n ∈ dueEvents s) ∧
    (c.state = .atBarrier → c.deadline = some 0 → .barrierTimeout n ∈ dueEvents s) ∧
    (taken → c.posting = .skipped ∨ c.posting = .mismatch ∨ (∃ code flag disp, c.posting = .ordinary code flag disp) →
      .retirement n ∈ dueEvents s) ∧
    (∀ code disp, c.state = .posting → c.posting = .reported code disp → s.engine.inRoom (.partHalf n) = false →
      .retirement n ∈ dueEvents s) ∧
    (∀ last, taken → c.posting = .discard last → c.taken ≠ c.retired → .discarded n ∈ dueEvents s) ∧
    (l.waiting = true → l.state = .idle → l.high = true → l.recog = none → .breakBegin n ∈ dueEvents s) ∧
    (l.bitEnd = true →
      (l.mismatch = false → l.state = .break → .breakEnd n ∈ dueEvents s) ∧
      (l.mismatch = false → l.state = .delimit → .delimiterEnd n ∈ dueEvents s) ∧
      (l.mismatch = false → l.state = .send → .querySent n ∈ dueEvents s) ∧
      (l.mismatch = true → l.state = .break ∨ l.state = .delimit ∨ l.state = .send → .bitError n ∈ dueEvents s)) ∧
    (l.state = .awaitAnswer → l.startDue = true → .answerStart n ∈ dueEvents s) ∧
    (l.state = .awaitAnswer → c.deadline = some 0 → .noAnswer n ∈ dueEvents s) ∧
    (l.state = .receive → l.done ≠ none → .answerByte n ∈ dueEvents s) ∧
    (l.state = .receive → l.inByte = false → l.done = none → l.wait = some 0 → .gapTimeout n ∈ dueEvents s) ∧
    (l.recog.isSome = true → .attentionRecognition n ∈ dueEvents s) ∧
    (l.state = .recover → l.wait = some 0 → .recoverEnd n ∈ dueEvents s) ∧
    (l.mon.high = false → 625000 ≤ l.mon.age → l.state ≠ .lineFault → .lineFaultEntry n ∈ dueEvents s) ∧
    (l.mon.high = true → 25000 ≤ l.mon.age → l.state = .lineFault → .lineFaultEnd n ∈ dueEvents s) ∧
    (∀ ch, (s.chan n ch).timer = some 0 →
      ((s.chan n ch).state = .delay → .delayEnd n ch ∈ dueEvents s) ∧
      ((s.chan n ch).state = .asserted → .pressWidthEnd n ch ∈ dueEvents s) ∧
      ((s.chan n ch).state = .tapOn → .tapOnEnd n ch ∈ dueEvents s) ∧
      ((s.chan n ch).state = .tapOff → .periodBoundary n ch ∈ dueEvents s)) ∧
    (w.run = 20 → if w.evaluated then .seatChange n ∈ dueEvents s else .firstEvaluation n ∈ dueEvents s) ∧
    (w.supply = .ramping → (w.goodRise = true → .supplyGoodRise n ∈ dueEvents s) ∧
      (c.deadline = some 0 → .noSupplyGood n ∈ dueEvents s)) ∧
    (w.supply = .ramping ∨ w.supply = .on → w.tripRise = true → .tripAccepted n ∈ dueEvents s) ∧
    (w.supply = .on → w.loss = some 0 → .lossOfSupplyGood n ∈ dueEvents s) ∧
    ∀ p, ((s.st n).filter p).cand = some 0 → .filterAcceptance (.station n p) ∈ dueEvents s

/-- No command and no step ends in a fault or a refusal: a command of the part's own events that is not due changes
nothing, and a command outside its row's operand checks is still taken (the model's choice, log entries 1 and 31). -/
def Obligations.EveryCommandAndStepGoesOn : Prop :=
  (∀ i s, ∃ t, exec i s = .next t) ∧ (∀ s, ∃ t, step s = .next t) ∧
  ∀ i s, ¬FromOutside i → i ∉ dueEvents s → exec i s = .next s

/-! ### Invariants of every step -/

/-- The request queue never exceeds 16 entries (R164). -/
def Obligations.QueueStaysWithinSixteen : Prop :=
  ∀ s t : State, QueueWithinRoom s → step s = .next t → QueueWithinRoom t

/-- Taken minus retired, the step in flight and the posting agree with the station state in every station (R19). -/
def Obligations.TalliesAgreeWithStationStates : Prop :=
  ∀ s t : State, AllTallied s → step s = .next t → AllTallied t

/-- A sync line is out of OFF exactly while the part is ACTIVE and its use flag is set (R157, R161, R162). -/
def Obligations.LinesFollowPartStateAndUse : Prop :=
  ∀ s t : State, LinesFollowUse s → step s = .next t → LinesFollowUse t

/-- Unlisted attention and mask bits stay 0 and SWEEP_PERIOD stays nonzero (R177, R179, R7). -/
def Obligations.RegistersStayLegal : Prop :=
  ∀ s t : State, RegistersLegal s → step s = .next t → RegistersLegal t

/-- A station never has two part-half writes in the queue and the room wait list (R165, R168). -/
def Obligations.PartHalfWritesStaySingle : Prop :=
  ∀ s t : State, PartHalvesSingle s → step s = .next t → PartHalvesSingle t

/-- The state after reset meets every invariant above, and the divisions of its Time Base are in range. -/
def Obligations.ResetMeetsTheInvariants : Prop :=
  QueueWithinRoom State.reset ∧ AllTallied State.reset ∧ LinesFollowUse State.reset ∧ RegistersLegal State.reset ∧
    PartHalvesSingle State.reset ∧ TimeBaseLegal State.reset

/-! ### Time -/

/-- What one REFCLK period does. The part clock advances by one at every 25th period and the ms tick comes at every 1000th
advance (R48, R50), and the first period after a reset has passed (R58). The sweep timer, the holdoff, the completion
timers, the gates, the filters, the loss-of-supply-good filters and the holds of the sync lines go on by one period (R52),
the levels of the probe lines age and their bit timers go on (R60, R61, R77), and nothing else changes but by edges of
PROBE that the part's own bits make. -/
def Obligations.ClockAdvancesEveryTwentyFifthPeriod : Prop :=
  ∀ s : State, TimeBaseLegal s →
    TimeBaseLegal (refclk s) ∧
    (refclk s).time.firstPeriod = false ∧
    (refclk s).time.prescale = (s.time.prescale + 1) % 25 ∧
    (refclk s).time.clock = (if s.time.prescale = 24 then s.time.clock + 1 else s.time.clock) ∧
    (refclk s).time.msDiv = (if s.time.prescale = 24 then (s.time.msDiv + 1) % 1000 else s.time.msDiv) ∧
    (refclk s).time.tickDue =
      (s.time.tickDue || (decide (s.time.prescale = 24) && decide (s.time.msDiv = 999))) ∧
    let t := refclk s
    t = { s with
      time := t.time, stations := t.stations, units := t.units, lineA := lineAged s.lineA, lineB := lineAged s.lineB,
      sweep := { s.sweep with timer := s.sweep.timer.map (· - 1) },
      notice := { s.notice with timer := s.notice.timer.map (· - 1) },
      engine := { s.engine with
        queue := s.engine.queue.map fun e => { e with sent := e.sent.map fun r => { r with timer := r.timer - 1 } } } } ∧
    (∀ n, t.st n = { s.st n with
      link := (t.st n).link, sense0 := filterAged (s.st n).sense0, sense1 := filterAged (s.st n).sense1,
      power := { (s.st n).power with
        good := filterAged (s.st n).power.good, trip := filterAged (s.st n).power.trip,
        loss := (s.st n).power.loss.map (· - 1) } }) ∧
    (∀ n, (s.st n).link.high = (s.st n).link.mon.high → LinkAged (s.st n).link (t.st n).link) ∧
    (∀ u, t.unit u = { s.unit u with gate := (s.unit u).gate.map (· - 1), inbox := (t.unit u).inbox } ∧
      ∃ news, (t.unit u).inbox = (s.unit u).inbox ++ news ∧ ∀ e ∈ news, e.signal = .probe) ∧
    ((∀ n, (t.st n).link.mon.high = (s.st n).link.mon.high) → ∀ u, (t.unit u).inbox = (s.unit u).inbox)

/-- MS_TICK advances every millisecond timer at once and samples every seat (R50, R105, R106). -/
def Obligations.MsTickAdvancesMillisecondTimers : Prop :=
  ∀ s : State, s.time.tickDue = true → Completes (exec .msTick s) fun t =>
    t = { s with time := { s.time with tickDue := false }, stations := t.stations, units := t.units } ∧
    (∀ n, t.ctx n = { s.ctx n with deadline := (s.ctx n).deadline.map (· - 1) }) ∧
    (∀ n c, t.chan n c = { s.chan n c with timer := (s.chan n c).timer.map (· - 1) }) ∧
    (∀ u, t.unit u = { s.unit u with window := (s.unit u).window.map (· - 1) }) ∧
    (∀ n, (t.st n).link = (s.st n).link ∧ (t.st n).sense0 = (s.st n).sense0 ∧ (t.st n).sense1 = (s.st n).sense1) ∧
    ∀ n, (t.st n).power = { (s.st n).power with run := (t.st n).power.run, runDir := (t.st n).power.runDir } ∧
      ((s.st n).power.evaluated = true →
        (t.st n).power.runDir = (s.st n).power.runDir ∧
        (t.st n).power.run =
          if (s.st n).power.rawSeat = (s.st n).power.seated then 0 else min 20 ((s.st n).power.run + 1)) ∧
      ((s.st n).power.evaluated = false →
        (t.st n).power.runDir = some (s.st n).power.rawSeat ∧
        (t.st n).power.run =
          if (s.st n).power.runDir = some (s.st n).power.rawSeat then min 20 ((s.st n).power.run + 1) else 1)

/-! ### Frames on the probe line -/

/-- The TAG byte carries the tag in bits 0 to 5, the two check bits above it, and raw check does not change it; nothing
after the query depends on the tag (R65). -/
def Obligations.TagByteCarriesTagAndCheckBits : Prop :=
  (∀ tag : Nat, tag < 64 →
    (∀ i, i < 6 → (tagByte tag).getLsbD i = tag.testBit i) ∧
    (tagByte tag).getLsbD 6 = (tag.testBit 0 ^^ tag.testBit 2 ^^ tag.testBit 3 ^^ tag.testBit 5) ∧
    (tagByte tag).getLsbD 7 = !(tag.testBit 0 ^^ tag.testBit 1 ^^ tag.testBit 4)) ∧
  (∀ (q : QuerySpec) (short : Bool), (queryFrame q short)[1]? = some (tagByte q.tag)) ∧
  ∀ (q : QuerySpec) (tag : Nat) (l : Link), completeCode (some { q with tag := tag }) l = completeCode (some q) l

/-- The check byte is 255 minus the running sum with 255 taken off at each overflow; a query's covers TAG, LEN and the
payload, or with SHORT the payload alone, unless raw check is set; an answer's covers STATUS, LEN and the payload, or the
payload alone (R66). -/
def Obligations.CheckByteCoversTheNamedBytes : Prop :=
  (∀ bs : List Byte,
    bs.foldl (fun sum b => if 255 < sum + b.toNat then sum + b.toNat - 255 else sum + b.toNat) 0 ≤ 255 ∧
    (checkByte bs).toNat =
      255 - bs.foldl (fun sum b => if 255 < sum + b.toNat then sum + b.toNat - 255 else sum + b.toNat) 0) ∧
  checkByte [] = 0xFF ∧
  (∀ (q : QuerySpec) (short : Bool),
    queryFrame q short =
      [0x96, tagByte q.tag, BitVec.ofNat 8 q.payload.length] ++ q.payload ++
        [if q.rawCheck then q.check
          else if short then checkByte q.payload
          else checkByte ([tagByte q.tag, BitVec.ofNat 8 q.payload.length] ++ q.payload)]) ∧
  ∀ l : Link, answerCheck l = if l.copy.short then checkByte l.buffer else checkByte ([l.status, l.len] ++ l.buffer)

/-! ### Resets and registers -/

/-- A cold reset puts every block into its cold reset values and takes the raw inputs as they are (R194); the inputs,
the log of what was sent and the waiting commands stand (the model's choice, log entry 26), and where section 1.6 and the
rules give no reset value the model names one (log entry 6). -/
def Obligations.ColdResetRestoresEveryBlock : Prop :=
  ∀ (s : State) (cause : ResetCause), Completes (exec (.coldReset cause) s) fun t =>
    t.time = State.reset.time ∧ t.ctl = State.reset.ctl ∧ t.sweep = State.reset.sweep ∧ t.notice = State.reset.notice ∧
    t.units = State.reset.units ∧ t.waitList = [] ∧ t.cohorts = State.reset.cohorts ∧
    t.engine.queue = [] ∧ t.engine.room = [] ∧ t.engine.held = State.reset.engine.held ∧
    t.sentLog = s.sentLog ∧ t.pending = s.pending ∧
    (∀ l, t.line l =
      { drive := .off, hold := none, others := (s.line l).others, filter := Filter.settled (s.line l).others,
        riseDue := false, fallDue := false }) ∧
    ∀ n, t.ctx n = Context.initial ∧ (t.st n).link = Link.initial (s.st n).link.outside ∧
      (∀ c, t.chan n c = Channel.initial) ∧
      (t.st n).power = Power.initial (s.st n).power.rawSeat (s.st n).power.good.raw (s.st n).power.trip.raw ∧
      (t.st n).sense0 = Filter.settled (s.st n).sense0.raw ∧ (t.st n).sense1 = Filter.settled (s.st n).sense1.raw

/-- A soft reset keeps WORK_BASE, HOLDOFF, NOTICE_MASK, the part clock with its divisions, the seat states and evaluated
marks, and puts the rest into its cold reset values (R195), those the model names among them (log entry 6); the inputs are
taken as they stand (the model's choice, log entry 26). -/
def Obligations.SoftResetKeepsWhatTheTableNames : Prop :=
  ∀ (s : State) (w : Word) (be : BitVec 4), be.getLsbD 0 = true → w.getLsbD 1 = true →
    Completes (exec (.softReset w be) s) fun t =>
      t.time = { s.time with firstPeriod := true } ∧
      t.ctl = { State.reset.ctl with workLo := s.ctl.workLo, workHi := s.ctl.workHi, holdoff := s.ctl.holdoff } ∧
      t.notice = { State.reset.notice with mask := s.notice.mask } ∧
      t.sweep = State.reset.sweep ∧ t.units = State.reset.units ∧ t.waitList = [] ∧ t.cohorts = State.reset.cohorts ∧
      t.engine.queue = [] ∧ t.engine.room = [] ∧ t.engine.held = State.reset.engine.held ∧
      (∀ l, t.line l =
        { drive := .off, hold := none, others := (s.line l).others, filter := Filter.settled (s.line l).others,
          riseDue := false, fallDue := false }) ∧
      ∀ n, t.ctx n = Context.initial ∧ (t.st n).link = Link.initial (s.st n).link.outside ∧
        (∀ c, t.chan n c = Channel.initial) ∧
        (t.st n).power.seated = (s.st n).power.seated ∧ (t.st n).power.evaluated = (s.st n).power.evaluated ∧
        (t.st n).power.run = 0 ∧ (t.st n).power.runDir = none ∧ (t.st n).power.supply = .off ∧
        (t.st n).power.tripCount = 0 ∧ (t.st n).power.seatCount = 0 ∧ (t.st n).power.loss = none ∧
        (t.st n).power.goodRise = false ∧ (t.st n).power.tripRise = false ∧
        (t.st n).power.rawSeat = (s.st n).power.rawSeat ∧ (t.st n).power.good = Filter.settled (s.st n).power.good.raw ∧
        (t.st n).power.trip = Filter.settled (s.st n).power.trip.raw ∧
        (t.st n).sense0 = Filter.settled (s.st n).sense0.raw ∧ (t.st n).sense1 = Filter.settled (s.st n).sense1.raw

/-- What a read of each register returns (R184, R185, R186), and the cold reset values of section 1.6. -/
def Obligations.RegisterReadsShowListedBits : Prop :=
  (∀ s : State, s.readRegister 0 = 0x00010724 ∧
    (s.readRegister 1).toNat = s.ctl.state.code + 256 * s.ctl.fault.code ∧
    (∀ i, (s.readRegister 2).getLsbD i =
      if i = 0 then s.ctl.run else if i = 2 then s.ctl.useA else if i = 3 then s.ctl.useB
      else (decide (16 ≤ i) && s.ctl.period.getLsbD (i - 16))) ∧
    (s.readRegister 3).toNat = s.ctl.holdoff.toNat ∧ s.readRegister 4 = s.ctl.workLo ∧ s.readRegister 5 = s.ctl.workHi ∧
    s.readRegister 6 = 0 ∧ s.readRegister 7 = s.notice.attention ∧ s.readRegister 8 = s.notice.mask ∧
    ∀ reg, 9 ≤ reg → s.readRegister reg = 0) ∧
  State.reset.readRegister 1 = 0 ∧ State.reset.readRegister 2 = 0x03E80000 ∧ State.reset.readRegister 3 = 0xC8 ∧
  State.reset.readRegister 4 = 0 ∧ State.reset.readRegister 5 = 0 ∧ State.reset.readRegister 7 = 0 ∧
  State.reset.readRegister 8 = 0

/-- A start request in CONFIG enters ACTIVE when WORK_BASE is a multiple of 4096, with the first sweep begun, a part-half
write of every station queued, the used lines pulled while their release condition does not hold (R157, R158, R161), and a
send begun when the pending flag is set and the writer is IDLE (R180, R181); otherwise the part stays in CONFIG with
BAD_BASE and RUN clear (R189). That the sweep read stands before the part-half writes is the model's choice (log entry
49). That a send begins after the part-half updates of its own event is the model's reading (log entry 10). -/
def Obligations.StartRequestEntersActiveOrRefuses : Prop :=
  ∀ (s : State) (w : Word) (be : BitVec 4), s.ctl.state = .config → be.getLsbD 0 = true → w.getLsbD 0 = true →
    w.getLsbD 1 = false →
    Completes (exec (.startRequest w be) s) fun t =>
      let c := controlStored w be s.ctl
      ((s.ctl.workHi ++ s.ctl.workLo).toNat % 4096 ≠ 0 →
        t = { s with ctl := { c with fault := .badBase, run := false } }) ∧
      ((s.ctl.workHi ++ s.ctl.workLo).toNat % 4096 = 0 →
        t.ctl = { c with state := .active, fault := .none, base := s.ctl.workHi ++ s.ctl.workLo } ∧
        t.sweep = { timer := some (250 * c.period.toNat), pending := s.sweep.pending, inFlight := true } ∧
        t.time = s.time ∧ t.sentLog = s.sentLog ∧ t.pending = s.pending ∧ t.units = s.units ∧ t.cohorts = s.cohorts ∧
        t.stations = s.stations ∧ t.waitList = s.waitList ∧ (∀ n, PartHalfReports n (ShowsPartHalf n t) t) ∧
        (s.engine.queue = [] → s.engine.room = [] →
          t.engine.queue.head? =
            some { req := { kind := .sweepRead, addr := s.ctl.workHi ++ s.ctl.workLo, length := 1536, bytes := [] },
                   sent := none }) ∧
        ((∀ l, (s.line l).drive = .off) → ∀ l, ((t.line l).drive = .off ↔ c.useFlag l = false) ∧
          (c.useFlag l = true → s.releaseCondition l = false → (t.line l).drive = .pull ∧ (t.line l).pin = false)) ∧
        (s.notice.pending = true → s.notice.writer = .idle →
          t.notice = { s.notice with
            count := s.notice.count + 1, pending := false, writer := .sending, offered := false,
            awaitHeld := t.notice.awaitHeld } ∧
          AwaitsHeld t ∧ RequestWaits (noticeWrite t t.notice.count) t) ∧
        (s.notice.pending = false ∨ s.notice.writer ≠ .idle →
          t.notice = { s.notice with awaitHeld := t.notice.awaitHeld }))

/-- A write with RUN 0 in ACTIVE takes the part into QUIESCING toward CONFIG (R190): the sweep stops, unsent reads are
gone, both lines are OFF, and every station that was not IDLE is IDLE or on its way: its supply, channels, units and
cohort are released, and a step in flight ends with STOPPED, the link of a QUERY cut (R37 to R43, R76, R162); a step its
block has not taken has begun nothing, and a waiting COLLECT ends before its unit takes an edge of the lift, by the
model's choice (log entries 7 and 58). A station still in FETCHING has its fetch read
in the queue (R39, R173), or, by the model's choice of log entries 15 and 34, keeps it behind its outcome write to be
refused when it is offered. -/
def Obligations.QuiesceStopsSweepLinesAndStations : Prop :=
  ∀ (s : State) (w : Word) (be : BitVec 4), s.ctl.state = .active → be.getLsbD 0 = true → w.getLsbD 0 = false →
    w.getLsbD 1 = false →
    Completes (exec (.quiesce w be) s) fun t =>
      t.ctl = { controlStored w be s.ctl with state := .quiescing, dest := .config } ∧
      t.sweep.timer = none ∧ t.sweep.pending = false ∧ t.time = s.time ∧ t.sentLog = s.sentLog ∧
      (∀ l, (t.line l).drive = .off ∧ (t.line l).hold = none) ∧
      (∀ e ∈ t.engine.queue, e.req.kind.isRead = true → e.sent.isSome = true) ∧
      (∀ r ∈ t.engine.room, r.kind.isRead = false) ∧
      (∀ n, (t.ctx n).state = .idle ∨ (t.ctx n).disabling = true) ∧
      (∀ n, (t.ctx n).state = .fetching →
        t.engine.inQueue (.fetch n) = true ∨ (t.ctx n).backlog = some .fetch) ∧
      ∀ n, Quiesced n s t

/-- A write with RUN 0 in FAULTED leaves for CONFIG at once when none of the writer's requests is in the engine, else as
soon as none is and no send is under way (R193; log entry 18). -/
def Obligations.FaultedLeavesForConfig : Prop :=
  (∀ (s : State) (w : Word) (be : BitVec 4), s.ctl.state = .faulted → be.getLsbD 0 = true → w.getLsbD 0 = false →
    w.getLsbD 1 = false →
    Completes (exec (.leaveFaulted w be) s) fun t =>
      t = { s with ctl :=
        if writerClear s then { controlStored w be s.ctl with state := .config, leaving := false }
        else { controlStored w be s.ctl with leaving := true } }) ∧
  ∀ s : State, s.ctl.state = .faulted → s.ctl.leaving = true → writerClear s = true →
    Completes (exec .faultedToConfig s) fun t => t = { s with ctl := { s.ctl with state := .config, leaving := false } }

/-- A CONTROL write in ACTIVE that keeps RUN 1 stores the use flags and puts the lines by them: an OFF line whose flag is set
goes to PULL (while its release condition does not hold), a line whose flag is clear goes OFF with its pin released and its
hold abandoned, any other stays (R161). -/
def Obligations.UseFlagsDriveTheLines : Prop :=
  ∀ (s : State) (w : Word) (be : BitVec 4), s.ctl.state = .active → be.getLsbD 0 = true → w.getLsbD 0 = true →
    w.getLsbD 1 = false →
    ∀ i ∈ [Instr.syncUseSet w be, Instr.syncUseClear w be],
    Completes (exec i s) fun t =>
      t = { s with ctl := controlStored w be s.ctl, lineA := t.lineA, lineB := t.lineB } ∧
      ∀ l, (t.ctl.useFlag l = true → (s.line l).drive = .off → s.releaseCondition l = false → (t.line l).drive = .pull) ∧
        (t.ctl.useFlag l = true → (s.line l).drive ≠ .off → t.line l = s.line l) ∧
        (t.ctl.useFlag l = false → (t.line l).drive = .off) ∧
        (t.ctl.useFlag l = false → (s.line l).drive ≠ .off → (t.line l).hold = none ∧ (t.line l).pin = (s.line l).others)

/-- In ACTIVE a CONTROL write that keeps RUN and the use flags stores a nonzero SWEEP_PERIOD and keeps the old one for 0; the
running sweep timer is not touched (R7, R186). Outside ACTIVE a CONTROL write that makes no start request in CONFIG and does
not leave FAULTED stores its fields and does nothing else; a disabled byte carries the present value (R184, R186). -/
def Obligations.SweepPeriodStoredUnlessZero : Prop :=
  ∀ (s : State) (w : Word) (be : BitVec 4),
    let periodStored : Control := { s.ctl with
      period := if periodCarried w be s.ctl.period = 0 then s.ctl.period else periodCarried w be s.ctl.period }
    (s.ctl.state = .active → s.ctl.run = true → LinesFollowUse s →
      (be.getLsbD 0 = true →
        w.getLsbD 0 = true ∧ w.getLsbD 1 = false ∧ w.getLsbD 2 = s.ctl.useA ∧ w.getLsbD 3 = s.ctl.useB) →
      Completes (exec (.sweepPeriod w be) s) fun t => t = { s with ctl := periodStored }) ∧
    let quiet (run : Bool) :=
      (s.ctl.state = .config ∧ run = false) ∨ s.ctl.state = .quiescing ∨ (s.ctl.state = .faulted ∧ run = true)
    ∀ i ∈ controlRows w be,
      (be.getLsbD 0 = true → w.getLsbD 1 = false → quiet (w.getLsbD 0) →
        Completes (exec i s) fun t => t = { s with ctl := controlStored w be s.ctl }) ∧
      (be.getLsbD 0 = false → quiet s.ctl.run → Completes (exec i s) fun t => t = { s with ctl := periodStored })

/-- A write to SWEEP and the end of the sweep timer begin a sweep when none is in flight, and otherwise set the
sweep-pending flag; outside ACTIVE the write has no effect (R7, R8). When its read completes, by one completion or the
last of several (R170), the sweep has ended, and in ACTIVE a pending one begins at once, its timer restarted and its read
offered; in QUIESCING the data is discarded (R8, R9, R172). -/
def Obligations.SweepBeginsOrIsPending : Prop :=
  ∀ s : State,
    (∀ (w : Word) (be : BitVec 4),
      (s.ctl.state ≠ .active → Completes (exec (.sweep w be) s) fun t => t = s) ∧
      (s.ctl.state = .active → s.sweep.inFlight = true →
        Completes (exec (.sweep w be) s) fun t => t = { s with sweep := { s.sweep with pending := true } }) ∧
      (s.ctl.state = .active → s.sweep.inFlight = false →
        Completes (exec (.sweep w be) s) fun t =>
          t = { s with
            sweep := { timer := some (250 * s.ctl.period.toNat), pending := s.sweep.pending, inFlight := true },
            engine := engineOffered s { kind := .sweepRead, addr := s.ctl.base, length := 1536, bytes := [] } })) ∧
    (s.ctl.state = .active → s.sweep.timer = some 0 →
      (s.sweep.inFlight = true → Completes (exec .sweepTimerExpiry s) fun t =>
        t = { s with sweep := { timer := none, pending := true, inFlight := true } }) ∧
      (s.sweep.inFlight = false → Completes (exec .sweepTimerExpiry s) fun t =>
        t = { s with
          sweep := { timer := some (250 * s.ctl.period.toNat), pending := s.sweep.pending, inFlight := true },
          engine := engineOffered s { kind := .sweepRead, addr := s.ctl.base, length := 1536, bytes := [] } })) ∧
    (∀ tag first last data, SweepArrives s tag first last data →
      Completes (exec (.readCompletion tag .success first last) s) fun t =>
      (s.sweep.pending = false → t.sweep = { s.sweep with inFlight := false }) ∧
      (s.sweep.pending = true →
        t.sweep = { timer := some (250 * s.ctl.period.toNat), pending := false, inFlight := true } ∧
        RequestWaits { kind := .sweepRead, addr := s.ctl.base, length := 1536, bytes := [] } t)) ∧
    ∀ tag e r data, s.ctl.state = .quiescing → s.sentRead tag = some e → e.sent = some r → e.req.kind = .sweepRead →
      r.got.length + data.length = e.req.length →
      Completes (exec (.readCompletion tag .success r.got.length data) s) fun t =>
        t.sweep = { s.sweep with inFlight := false } ∧ t.stations = s.stations ∧ t.ctl = s.ctl

/-- A write to ATTENTION clears each bit written as 1 and leaves the rest of the part as it is; whichever of the write and a
setting event comes second decides the bit (R178). -/
def Obligations.AttentionWriteClearsOnes : Prop :=
  ∀ (s : State) (w : Word) (be : BitVec 4), Completes (exec (.attentionClear w be) s) fun t =>
    t = { s with notice := { s.notice with attention := t.notice.attention } } ∧
    (∀ i, i < 32 → t.notice.attention.getLsbD i =
      (s.notice.attention.getLsbD i && !(be.getLsbD (i / 8) && w.getLsbD i))) ∧
    (∀ i, i < 32 → (setAttention i t).notice.attention.getLsbD i = true) ∧
    (∀ i, i < 32 → (setAttention i t).notice.pending =
      (t.notice.pending || (!t.notice.attention.getLsbD i && t.notice.mask.getLsbD i))) ∧
    ∀ i, i < 32 → be.getLsbD (i / 8) = true → w.getLsbD i = true →
      Completes (exec (.attentionClear w be) (setAttention i s)) fun v => v.notice.attention.getLsbD i = false

/-- A write to NOTICE_MASK stores its listed bits, sets the pending flag when it admits a bit that is set, and begins a send
when the writer is IDLE and the part state allows one; the send awaits the part-half updates held when its block is composed
(R179, R180, R181). -/
def Obligations.MaskWriteAdmitsAndMayBeginSend : Prop :=
  ∀ (s : State) (w : Word) (be : BitVec 4), Completes (exec (.noticeMaskWrite w be) s) fun t =>
    (∀ i, i < 32 → t.notice.mask.getLsbD i =
      ((decide (i < 24) || decide (i = 31)) && bitWritten w be s.notice.mask i)) ∧
    t.notice.attention = s.notice.attention ∧
    let admits := s.notice.attention &&& t.notice.mask &&& ~~~s.notice.mask ≠ 0
    let allowed := s.ctl.state = .active ∨ s.ctl.state = .quiescing ∨ (s.ctl.state = .faulted ∧ s.ctl.leaving = false)
    let sends := (s.notice.pending = true ∨ admits) ∧ s.notice.writer = .idle ∧ allowed
    (¬sends →
      t = { s with notice := { s.notice with mask := t.notice.mask, pending := t.notice.pending } } ∧
      (t.notice.pending = true ↔ s.notice.pending = true ∨ admits)) ∧
    (sends →
      t = { s with notice := t.notice, engine := t.engine } ∧
      t.notice.count = s.notice.count + 1 ∧ t.notice.pending = false ∧ t.notice.writer = .sending ∧
      t.notice.offered = false ∧ AwaitsHeld t ∧
      t.engine = engineOffered s (noticeWrite s (s.notice.count + 1)))

/-- Writes to HOLDOFF and WORK_BASE store the enabled bytes, WORK_BASE in CONFIG alone (R187, R184). -/
def Obligations.RegisterWritesStoreEnabledBytes : Prop :=
  ∀ (s : State) (w : Word) (be : BitVec 4),
    (Completes (exec (.registerWrite 3 w be) s) fun t =>
      t = { s with ctl := { s.ctl with holdoff := t.ctl.holdoff } } ∧
      ∀ i, i < 16 → t.ctl.holdoff.getLsbD i = if be.getLsbD (i / 8) then w.getLsbD i else s.ctl.holdoff.getLsbD i) ∧
    (s.ctl.state = .config →
      (Completes (exec (.registerWrite 4 w be) s) fun t =>
        t = { s with ctl := { s.ctl with workLo := t.ctl.workLo } } ∧
        ∀ i, i < 32 → t.ctl.workLo.getLsbD i = bitWritten w be s.ctl.workLo i) ∧
      Completes (exec (.registerWrite 5 w be) s) fun t =>
        t = { s with ctl := { s.ctl with workHi := t.ctl.workHi } } ∧
        ∀ i, i < 32 → t.ctl.workHi.getLsbD i = bitWritten w be s.ctl.workHi i) ∧
    (s.ctl.state ≠ .config →
      (Completes (exec (.registerWrite 4 w be) s) fun t => t = s) ∧
      Completes (exec (.registerWrite 5 w be) s) fun t => t = s)

/-! ### The Memory Link Engine and the Notice Block writer -/

/-- The link accepts a request: the oldest unsent entry is sent. A read stays with its tag and a timer of 10 ms; a write
leaves, the head of the room wait list takes its place, and what its station held back behind it is offered: a held
part-half update, an outcome, a DISCARDED outcome, or a fetch, which while DRAINING is refused and ends the fetch phase;
the message starts the holdoff, and one of 0 ends at once (R164, R166, R167, R168, R171, R173, R182). A station whose
part-half write enters the queue is no longer awaited by the writer, and a send so begun awaits the updates then held
(R169, R181). Tags, the log of what was sent and the keeping of a station's second request are the model's own (log
entries 11, 12, 14 and 15). -/
def Obligations.SendEntrySendsOldestUnsent : Prop :=
  (∀ s : State, (∀ e ∈ s.engine.queue, e.sent.isSome = true) → Completes (exec .sendEntry s) fun t => t = s) ∧
  ∀ (s : State) (before after : List Entry) (e : Entry),
    s.engine.queue = before ++ e :: after → (∀ x ∈ before, x.sent.isSome = true) → e.sent = none →
    let sent : State := { s with
      engine := { s.engine with
        queue := before ++ after ++ (s.engine.room.take 1).map (fun r => { req := r, sent := none }),
        room := s.engine.room.drop 1 },
      sentLog := { req := e.req, tag := none } :: s.sentLog }
    (e.req.kind.isRead = true → Completes (exec .sendEntry s) fun t =>
      t = { s with
        engine := { s.engine with
          queue := before ++ { e with sent := some { tag := s.engine.nextTag, timer := 250000, got := [] } } :: after,
          nextTag := s.engine.nextTag + 1 },
        sentLog := { req := e.req, tag := some s.engine.nextTag } :: s.sentLog }) ∧
    (QueueWithinRoom s ∨ s.engine.room = [] →
      (e.req.kind = .noticeBlock ∨ (∃ n, e.req.kind = .outcome n ∧ (s.ctx n).backlog = none) ∨
          (∃ n, e.req.kind = .partHalf n ∧ s.engine.held.get n = none) →
        Completes (exec .sendEntry s) fun t =>
          t = { sent with notice := { s.notice with awaitHeld := t.notice.awaitHeld } } ∧ AwaitsRefilled s t) ∧
      (∀ n, e.req.kind = .outcome n →
        (∀ x ∈ before ++ after, x.req.kind ≠ .fetch n ∧ x.req.kind ≠ .outcome n) →
        (∀ r ∈ s.engine.room, r.kind ≠ .fetch n ∧ r.kind ≠ .outcome n) →
        (∀ bytes, (s.ctx n).backlog = some (.outcome bytes) → Completes (exec .sendEntry s) fun t =>
          t.ctx n = { s.ctx n with backlog := none } ∧ t.engine = engineOffered sent (outcomeWrite s n bytes) ∧
          AwaitsRefilled s t) ∧
        ((s.ctx n).backlog = some .discarded → Completes (exec .sendEntry s) fun t =>
          t.ctx n = { s.ctx n with backlog := none } ∧
          t.engine = engineOffered sent
            (outcomeWrite s n (outcomeBytes .discarded (s.ctx n).retired s.now s.now [])) ∧
          AwaitsRefilled s t) ∧
        ((s.ctx n).backlog = some .fetch → s.ctl.state = .active → Completes (exec .sendEntry s) fun t =>
          t.ctx n = { s.ctx n with backlog := none } ∧ t.engine = engineOffered sent (fetchRead s n) ∧
          AwaitsRefilled s t) ∧
        ((s.ctx n).backlog = some .fetch → s.ctl.state = .quiescing → (s.ctx n).state = .fetching →
          (s.ctx n).disabling = true → Completes (exec .sendEntry s) fun t =>
            HasArrivedIdle n t ∧ (t.ctx n).halt = .none ∧ (t.ctx n).taken = (s.ctx n).taken - 1 ∧
            (t.ctx n).retired = (s.ctx n).retired ∧ t.engine.inQueue (.fetch n) = false)) ∧
      (∀ n bytes, e.req.kind = .partHalf n → s.engine.held.get n = some bytes → Completes (exec .sendEntry s) fun t =>
        t.stations = s.stations ∧
        t.engine = engineOffered
          { sent with engine := { sent.engine with held := s.engine.held.set n.1 none n.2 } }
          { kind := .partHalf n, addr := s.ctl.base + BitVec.ofNat 64 (64 * n.1 + 32), length := 32, bytes := bytes } ∧
        ∀ m, m ∈ t.notice.awaitHeld ↔
          m ∈ s.notice.awaitHeld ∧ (∀ r, s.engine.room.head? = some r → r.kind ≠ .partHalf m) ∧
          (m = n → t.engine.queue.length = sent.engine.queue.length)) ∧
      (e.req.kind = .message → s.ctl.holdoff ≠ 0 → Completes (exec .sendEntry s) fun t =>
        t = { sent with notice := { s.notice with
          writer := .holdoff, timer := some (25 * s.ctl.holdoff.toNat), awaitHeld := t.notice.awaitHeld } } ∧
        AwaitsRefilled s t) ∧
      (e.req.kind = .message → s.ctl.holdoff = 0 → Completes (exec .sendEntry s) fun t =>
        (s.notice.pending = false →
          t = { sent with notice := { s.notice with
            writer := .idle, timer := none, awaitHeld := t.notice.awaitHeld } } ∧ AwaitsRefilled s t) ∧
        (s.notice.pending = true → s.ctl.state = .active →
          t.notice.count = s.notice.count + 1 ∧ t.notice.writer = .sending ∧ t.notice.pending = false ∧
          t.notice.offered = false ∧ AwaitsHeld t ∧ t.engine = engineOffered sent (noticeWrite s (s.notice.count + 1)))))

/-- A completion that continues its read adds its bytes, and one that matches no sent read is discarded (R170, R171). -/
def Obligations.CompletionExtendsItsReadOrIsDiscarded : Prop :=
  ∀ (s : State) (tag first : Nat) (status : CompletionStatus) (data : List Byte),
    ((∀ x ∈ s.engine.queue, x.hasTag tag = false) →
      Completes (exec (.readCompletion tag status first data) s) fun t => t = s) ∧
    ∀ (before after : List Entry) (e : Entry) (r : SentRead),
      s.engine.queue = before ++ e :: after → e.sent = some r → r.tag = tag →
      (∀ x ∈ before ++ after, x.hasTag tag = false) →
      status = .success → first = r.got.length → r.got.length + data.length < e.req.length →
      Completes (exec (.readCompletion tag status first data) s) fun t =>
        t = { s with engine := { s.engine with
          queue := before ++ { e with sent := some { r with got := r.got ++ data } } :: after } }

/-- The last bytes of a fetch read (R22, R24, R25): with the record's tag the step is dispatched, or ended with BAD_STEP
when its record fails a check: an absent kind, a parameter out of its range of section 1.6, a bad disposition, or an ARM that
R124 refuses; with another tag taken is lowered and STRIP_MISMATCH is posted; the outcome write of either is
offered (R27, R165). The dispatched step is
handed to its block, whose own command makes the checks of R46 and R146 (the model's reading, log entry 7). -/
def Obligations.FetchedRecordIsDispatched : Prop :=
  (∀ (bs : List Byte) (hasCohort : Bool) (start : Word),
    let st := stepOfRecord bs hasCohort start
    (∀ op, op ≠ .invalid → (st.op = op ↔ DispositionPasses bs ∧ RecordGives bs hasCohort op)) ∧
    (natAt bs 1 / 4 % 4 = 1 → st.disp = .continue) ∧
    (natAt bs 1 / 4 % 4 = 2 → 1 ≤ natAt bs 1 / 16 → st.disp = .skip (natAt bs 1 / 16)) ∧
    (natAt bs 1 / 4 % 4 = 0 ∨ ¬DispositionPasses bs → st.disp = .halt) ∧
    st.noticeFlag = (byteAt bs 1).getLsbD 0 ∧ st.attached = (byteAt bs 1).getLsbD 1 ∧ st.deadline = leNat bs 4 2 ∧
    st.start = start ∧ st.handed = true) ∧
  ∀ (s : State) (n : StationId) (tag first : Nat) (data : List Byte) (e : Entry) (r : SentRead),
    s.sentRead tag = some e → e.sent = some r → e.req.kind = .fetch n → e.req.length = 32 → first = r.got.length →
    r.got.length + data.length = 32 → (s.ctx n).state = .fetching → (s.ctx n).disabling = false →
    (s.ctx n).pendingHalt = none →
    Completes (exec (.readCompletion tag .success first data) s) fun t =>
      let bs := r.got ++ data
      let c := s.ctx n
      let st := stepOfRecord bs c.cohort.isSome s.now
      (BitVec.ofNat 16 (leNat bs 2 2) = c.retired → st.op ≠ .invalid →
        t.ctx n = { c with state := .running, step := some st }) ∧
      (BitVec.ofNat 16 (leNat bs 2 2) = c.retired → st.op = .invalid →
        (t.ctx n).state = .posting ∧ (t.ctx n).posting = .ordinary .badStep st.noticeFlag st.disp ∧
        (t.ctx n).lastRun = c.retired ∧ (t.ctx n).taken = c.taken ∧ (t.ctx n).retired = c.retired ∧
        OutcomeOffered n (outcomeBytes .badStep c.retired s.now s.now []) t) ∧
      (BitVec.ofNat 16 (leNat bs 2 2) ≠ c.retired →
        (t.ctx n).state = .posting ∧ (t.ctx n).posting = .mismatch ∧ (t.ctx n).lastRun = c.lastRun ∧
        (t.ctx n).taken = c.taken - 1 ∧ (t.ctx n).retired = c.retired ∧
        OutcomeOffered n (outcomeBytes .stripMismatch c.retired s.now s.now []) t)

/-- A fetch read that faults, by an error or poisoned completion, by bytes that do not continue it or overrun it, or by
the end of its completion timer, lowers taken and halts its station with MEMORY_FAULT, which may complete the round of
others (R23, R31, R155, R170, R171). That a send begins after the part-half updates of its own event is the model's
reading (log entry 10). -/
def Obligations.FaultedFetchHaltsStation : Prop :=
  ∀ (s : State) (n : StationId) (tag : Nat) (e : Entry) (r : SentRead),
    s.sentRead tag = some e → e.sent = some r → e.req.kind = .fetch n → (s.ctx n).state = .fetching →
    (s.ctx n).disabling = false → (s.ctx n).pendingHalt = none → (s.ctx n).step = none →
    ∀ i, ReadFaults i tag e r →
    Completes (exec i s) fun t =>
      HasHalted n .memoryFault s t ∧ (t.ctx n).taken = (s.ctx n).taken - 1 ∧
      ((∀ x ∈ s.engine.queue, x.hasTag tag = true → x.req.kind = .fetch n) → DepartureTaken n s t) ∧
      (t.ctx n).retired = (s.ctx n).retired ∧ (t.ctx n).lastRun = (s.ctx n).lastRun

/-- A sweep read that faults in ACTIVE, by an error or poisoned completion, by bytes that do not continue it or overrun
it, or by the end of its completion timer, takes the part into QUIESCING toward FAULTED with SWEEP_READ, and the quiesce
reaches every station as one by RUN does (R43, R170, R171, R190, R191). That a fetch read its station keeps ends later,
that a step its block has not taken has begun nothing, and that a waiting COLLECT ends before its unit takes an edge of the
lift, is the model's choice (log entries 7, 15 and 58). -/
def Obligations.FaultedSweepQuiescesTowardFaulted : Prop :=
  ∀ (s : State) (tag : Nat) (e : Entry) (r : SentRead),
    s.sentRead tag = some e → e.sent = some r → e.req.kind = .sweepRead → s.ctl.state = .active →
    ∀ i, ReadFaults i tag e r →
    Completes (exec i s) fun t =>
      t.ctl = { s.ctl with state := .quiescing, dest := .faulted, fault := .sweepRead } ∧
      t.sweep.timer = none ∧ t.sweep.pending = false ∧ (∀ l, (t.line l).drive = .off ∧ (t.line l).hold = none) ∧
      (∀ n, (t.ctx n).state = .idle ∨ (t.ctx n).disabling = true) ∧
      ((∀ x ∈ s.engine.queue, x.hasTag tag = true → x.req.kind = .sweepRead) → ∀ n, Quiesced n s t)

/-- The enable of an IDLE station by a completed sweep (R9, R11, R12, R170): the counts are the origin, the settings the
defaults, the live set of its cohort joined, where a ready round loses its ready flag and its line pulls again (R145,
R149, R156, R158), a part-half write is queued, and the station is READY, or fetches the first of the records handed over
with its read offered, or halts with BAD_HANDOVER at a count that fails (R16); a host half that fails a check leaves it
HALTED with BAD_ENTRY and its attention bit set. An IDLE station stands in no arrived set (R31). That a send begins after
the part-half updates of its own event is the model's reading (log entry 10). -/
def Obligations.CompletedSweepEnablesIdleStation : Prop :=
  ∀ (s : State) (n : StationId) (tag first : Nat) (last data : List Byte),
    SweepArrives s tag first last data → (s.ctx n).state = .idle → (s.ctx n).step = none → NotArrived s n →
    Completes (exec (.readCompletion tag .success first last) s) fun t =>
      let h := observed data n
      let c := t.ctx n
      (h.enabled = true → h.valid = true → Enables (OthersCalm s n data) n h s t) ∧
      (h.enabled = true → h.valid = false →
        CountsTaken h c ∧ HasHalted n .badEntry s t ∧ c.taken = h.origin ∧ c.lastRead = h.origin ∧
        c.base = (s.ctx n).base ∧ c.exp = (s.ctx n).exp ∧ c.cohort = (s.ctx n).cohort)

/-- The message, which carries no address in the model (log entry 25), is offered once the block's write and the held
updates have been taken; at the end of the holdoff the writer
is IDLE, or sends again when the pending flag is set, and awaits the updates then held (R181, R182). -/
def Obligations.MessageFollowsBlockAndHoldoffEnds : Prop :=
  (∀ s : State, s.notice.writer = .sending → s.notice.offered = false → s.engine.inRoom .noticeBlock = false →
    s.notice.awaitHeld = [] → s.ctl.state ≠ .config →
    Completes (exec .messageOffer s) fun t =>
      t = { s with
        notice := { s.notice with offered := true },
        engine := engineOffered s { kind := .message, addr := 0, length := 0, bytes := [] } }) ∧
  ∀ s : State, s.notice.writer = .holdoff → s.notice.timer = some 0 →
    (s.notice.pending = false → Completes (exec .holdoffEnd s) fun t =>
      t = { s with notice := { s.notice with writer := .idle, timer := none } }) ∧
    (s.notice.pending = true → s.ctl.state = .active → Completes (exec .holdoffEnd s) fun t =>
      t.notice.writer = .sending ∧ t.notice.count = s.notice.count + 1 ∧ t.notice.pending = false ∧
      t.notice.attention = s.notice.attention ∧ t.notice.offered = false ∧ AwaitsHeld t ∧
      t.engine = engineOffered s (noticeWrite s (s.notice.count + 1)))

/-- With every station IDLE, the drain complete and no send under way (log entry 18) the part leaves QUIESCING: for CONFIG
with nothing else changed, or for FAULTED with the PART bit set, which where it is admitted sets the pending flag and
begins a send when the writer is IDLE (R179, R180, R191, R192). -/
def Obligations.QuiesceCompletesAtDestination : Prop :=
  ∀ s : State, s.ctl.state = .quiescing → (∀ n, (s.ctx n).state = .idle) → s.engine.queue = [] → s.engine.room = [] →
    (∀ n, s.engine.held.get n = none) → s.notice.writer ≠ .sending →
    (s.ctl.dest = .config → Completes (exec .quiesceComplete s) fun t => t = { s with ctl := { s.ctl with state := .config } }) ∧
    (s.ctl.dest = .faulted → Completes (exec .quiesceComplete s) fun t =>
      t.ctl = { s.ctl with state := .faulted } ∧ t.notice.attention.getLsbD 31 = true ∧ NoticeFollows 31 s t ∧ t.stations = s.stations ∧
      t.sweep = s.sweep ∧ t.time = s.time)

/-! ### The sequencer's own kinds -/

/-- PAUSE counts its length on the deadline timer and ends OK at its expiry; NOTE ends OK with its eight bytes as result
(R44, R45). -/
def Obligations.PauseWaitsAndNoteEndsAtOnce : Prop :=
  (∀ (s : State) (n : StationId) (st : InFlight) (len : Nat), Handed s n st (.pause len) →
    Completes (exec (.pause n) s) fun t =>
      OnlyStation n s t ∧
      t.st n = { s.st n with ctx := { s.ctx n with step := some st.taken, deadline := some (len + 1) } }) ∧
  (∀ (s : State) (n : StationId) (st : InFlight) (len : Nat), Flying s n st (.pause len) → (s.ctx n).deadline = some 0 →
    Completes (exec (.pauseExpiry n) s) fun t => StepEndsAlone n st .ok [] s t) ∧
  ∀ (s : State) (n : StationId) (st : InFlight) (bytes : List Byte), Handed s n st (.note bytes) →
    Completes (exec (.note n) s) fun t => StepEndsAlone n st .ok bytes s t

/-- SETUP sets every setting together, or ends SETUP_BUSY with none changed when a channel is not IDLE or a unit is bound to
the station (R46). -/
def Obligations.SetupIsAllOrBusy : Prop :=
  ∀ (s : State) (n : StationId) (st : InFlight) (v : Settings), Handed s n st (.setup v) →
    ((∀ c, (s.chan n c).state = .idle) → (∀ u slot, (s.unit u).binding ≠ some (n, slot)) →
      Completes (exec (.setup n) s) fun t =>
        OnlyStationEngine n s t ∧ StepEnds n st .ok [] (s.setCtx n { s.ctx n with settings := v }) t ∧
        t.st n = { s.st n with ctx := t.ctx n }) ∧
    ((∃ c, (s.chan n c).state ≠ .idle) ∨ (∃ u slot, (s.unit u).binding = some (n, slot)) →
      Completes (exec (.setup n) s) fun t => StepEndsAlone n st .setupBusy [] s t)

/-! ### Posting and the observation -/

/-- RETIREMENT (R28, R29, R30): once the outcome write has entered the queue retired rises, a part-half write that carries
it is queued, and notice-on-retire sets the bit with the notice it asks for (R177 to R180). While the part-half write
waits for room the station stays in POSTING (R28), and this command ends that wait too. Then the class is applied and the
station goes its way: IDLE for a disable in progress, HALTED for a pending or its own halt reason, which may complete the
round of others (R155), HALTED with BAD_HANDOVER for the mark, else its next record, its fetch read or SKIPPED write
offered. A SKIPPED record lowers the debt, a STRIP_MISMATCH halts without retiring (R21, R22). That the class waits for
the part-half write's room, and that this command ends a SKIPPED, a STRIP_MISMATCH and a waiting posting, is the model's
choice (log entries 8 and 37). That a send begins after the part-half updates of its own event is the model's reading (log
entry 10). -/
def Obligations.RetirementAppliesClassAndMovesOn : Prop :=
  ∀ (s : State) (n : StationId), (s.ctx n).state = .posting →
    let c := s.ctx n
    let taken := c.backlog = none ∧ s.engine.inRoom (.outcome n) = false
    let recorded := taken ∧ (c.posting = .skipped ∨ ∃ code flag disp, c.posting = .ordinary code flag disp)
    let reported := s.engine.inRoom (.partHalf n) = false ∧ ∃ code disp, c.posting = .reported code disp
    let leaves := (recorded ∧ ¬ReportWaits s n) ∨ reported ∨ (taken ∧ c.posting = .mismatch)
    let ends (P : State → Prop) : Prop := Completes (exec (.retirement n) s) P
    let retired : Half := match c.posting with
      | .ordinary _ _ _ | .skipped => c.retired + 1
      | .none | .mismatch | .discard _ | .reported _ _ => c.retired
    let next (debt : Nat) (t : State) : Prop :=
      let d := t.ctx n
      NextOffered n t ∧ (recorded → RetiredReported n retired t) ∧ d.retired = retired ∧ d.lastRun = c.lastRun ∧
      d.skipDebt = debt ∧ d.halt = c.halt ∧
      (c.lastRead = c.taken → d.state = .ready ∧ d.taken = c.taken) ∧
      (c.lastRead ≠ c.taken → debt = 0 → d.state = .fetching ∧ d.taken = c.taken + 1) ∧
      (c.lastRead ≠ c.taken → debt ≠ 0 → d.state = .posting ∧ d.posting = .skipped ∧ d.taken = c.taken + 1)
    let undisturbed := leaves ∧ c.disabling = false ∧ c.pendingHalt = none
    let halts (r : HaltReason) : Prop :=
      ends fun t => HasHalted n r s t ∧ DepartureTaken n s t ∧ (t.ctx n).retired = retired
    let moves (debt : Nat) : Prop :=
      (c.badMark = true → halts .badHandover) ∧
      (c.badMark = false → s.ctl.state = .active ∨ c.lastRead = c.taken ∨ debt ≠ 0 → ends (next debt))
    (∀ code flag disp, taken → c.posting = .ordinary code flag disp →
      (flag = true → ends fun t => t.notice.attention.getLsbD n = true ∧ NoticeFollows n s t) ∧
      (ReportWaits s n → ends fun t =>
        t.ctx n = { c with retired := retired, posting := .reported code disp } ∧ RetiredReported n retired t)) ∧
    (taken → c.posting = .skipped → ReportWaits s n → ends fun t =>
      t.ctx n = { c with retired := retired, skipDebt := c.skipDebt - 1, posting := .reported .skipped .continue } ∧
      RetiredReported n retired t) ∧
    (leaves →
      (c.disabling = true →
        ends fun t => HasArrivedIdle n t ∧ (t.ctx n).halt = .none ∧ (t.ctx n).retired = retired) ∧
      ∀ r, c.disabling = false → c.pendingHalt = some r → halts r) ∧
    (∀ code disp, undisturbed → c.posting = .reported code disp ∨ (∃ flag, c.posting = .ordinary code flag disp) →
      (code = .supplyTrip → halts .supplyTrip) ∧
      (code = .unseated → halts .unseated) ∧
      (code.class = .fail → disp = .halt → halts .stepFailed) ∧
      (code.class = .fail → disp = .continue → moves c.skipDebt) ∧
      (∀ k, code.class = .fail → disp = .skip k → moves (min (c.skipDebt + k) 15)) ∧
      (code.class = .ok ∨ code.class = .apart → moves c.skipDebt)) ∧
    (undisturbed → c.posting = .skipped → moves (c.skipDebt - 1)) ∧
    (undisturbed → c.posting = .mismatch → halts .stripMismatch)

/-- DISCARDED (R35): the record is retired and the next of the range taken, its DISCARDED write offered and no part-half
write queued; after the last a part-half write is queued, and the station stays in POSTING while that write waits for room
(R28; log entry 37), else goes to IDLE, halts, fetches, passes a record over or is READY (R30). That taken rises for the
next record in the event that retires the one before, also while its write is still kept, is the model's choice (log entry
52). That a send begins after the part-half updates of its own event is the model's reading (log entry 10). -/
def Obligations.DiscardRetiresItsRangeInOrder : Prop :=
  ∀ (s : State) (n : StationId) (last : Half), (s.ctx n).state = .posting → (s.ctx n).posting = .discard last →
    (s.ctx n).backlog = none → s.engine.inRoom (.outcome n) = false → (s.ctx n).taken = (s.ctx n).retired + 1 →
    ((s.ctx n).taken ≠ last → Completes (exec (.discarded n) s) fun t =>
      t.ctx n = { s.ctx n with
        retired := (s.ctx n).retired + 1, taken := (s.ctx n).taken + 1,
        backlog := if s.engine.ownBusy n then some .discarded else none } ∧
      (s.engine.ownBusy n = false → TakesWrites s →
        RequestWaits (outcomeWrite t n (outcomeBytes .discarded ((s.ctx n).retired + 1) s.now s.now [])) t) ∧
      t.engine.held = s.engine.held ∧
      (∀ x, x.req.kind = .partHalf n → (x ∈ t.engine.queue ↔ x ∈ s.engine.queue)) ∧
      (∀ r, r.kind = .partHalf n → (r ∈ t.engine.room ↔ r ∈ s.engine.room)) ∧
      ∀ m, m ≠ n → t.st m = s.st m) ∧
    ((s.ctx n).taken = last → ReportWaits s n → Completes (exec (.discarded n) s) fun t =>
      t.ctx n = { s.ctx n with retired := last, posting := .reported .discarded .continue } ∧ RetiredReported n last t) ∧
    ((s.ctx n).taken = last → ¬ReportWaits s n → Completes (exec (.discarded n) s) fun t =>
      let c := s.ctx n
      let d := t.ctx n
      d.retired = last ∧ d.posting = (if d.state = .posting then .skipped else .none) ∧
      (c.disabling = true → HasArrivedIdle n t ∧ d.halt = .none) ∧
      (c.disabling = false →
        (∀ r, c.pendingHalt = some r → HasHalted n r s t ∧ DepartureTaken n s t) ∧
        (c.pendingHalt = none → c.badMark = true → HasHalted n .badHandover s t ∧ DepartureTaken n s t) ∧
        (c.pendingHalt = none → c.badMark = false →
          (s.ctl.state = .active ∨ c.lastRead = last ∨ c.skipDebt ≠ 0 → NextOffered n t ∧ RetiredReported n last t) ∧
          (c.lastRead = last → d.state = .ready ∧ d.taken = last) ∧
          (c.lastRead ≠ last → c.skipDebt = 0 → s.ctl.state = .active → d.state = .fetching ∧ d.taken = last + 1) ∧
          (c.lastRead ≠ last → c.skipDebt ≠ 0 → d.state = .posting ∧ d.taken = last + 1))))

/-- What a completed sweep asks of a station in each state. A changed stop count halts it, ends its step, a waiting ARM,
COLLECT or BARRIER among them, or waits for its posting or its read; a mode of 0 disables it, also one on its way to
HALTED (R42); the step of either ends with the result of its kind, its block stopping it: a link cut, an attached PRESS
lifted, a ramp OFF, a unit freed (R40, R74, R76, R92, R112, R136, R140, R154; a step not yet taken has begun nothing, log
entry 7). A changed resume count resumes a HALTED station, or a READY one that the stop of the same observation has
halted, with CONTINUE or DISCARD, its cohort's live set rejoined and the line judged (R145, R156, R158), and a BAD_ENTRY
halt by the checks of an enable (R12, log entry 17); such a station stands in no arrived set (R31). The handover count is
taken or fails. Every changed stop or resume count is absorbed with a part-half write, also one that acts no further: in
any other state, on the way to HALTED and while a disable is in progress, which takes no handover count (R13 to R15, R42).
A halt or a disable may complete the round of others (R155). R10, R12 to R17, R34, R35, R37 to R42, R196; log entries 15,
28, 37 and 58. That a send begins after the part-half updates of its own event is the model's reading (log entry 10). -/
def Obligations.SweepStopsResumesAndDisables : Prop :=
  ∀ (s : State) (n : StationId) (tag first : Nat) (last data : List Byte), SweepArrives s tag first last data →
    let h := observed data n
    let c := s.ctx n
    let alone := NobodyWaits s ∨ OthersCalm s n data
    let still := OthersStill s n data ∧ AllTallied s ∧
      ∀ x ∈ s.engine.queue, x.hasTag tag = true → x.req.kind = .sweepRead
    let swept (P : State → Prop) : Prop := Completes (exec (.readCompletion tag .success first last) s) P
    let kept (d : Context) : Prop := d.taken = c.taken ∧ d.retired = c.retired
    let absorbed (d : Context) : Prop := d.stopSeen = h.stop ∧ d.resumeSeen = h.resume
    let tested (d : Context) : Prop := d.lastRead = if d.handoverPasses h.handover then h.handover else c.lastRead
    let underway := c.state ≠ .idle ∧ c.state ≠ .ready ∧ c.state ≠ .halted
    let stop := h.enabled = true ∧ h.stop ≠ c.stopSeen ∧ (h.resume = c.resumeSeen ∨ underway)
    let resume := h.enabled = true ∧ h.resume ≠ c.resumeSeen ∧ NotArrived s n ∧
      (c.state = .halted ∨ (c.state = .ready ∧ h.stop ≠ c.stopSeen))
    let b : Context := if c.state = .ready then { c with halt := .stopRequest, skipDebt := 0, badMark := false } else c
    let absorbs := h.enabled = true ∧ c.disabling = false ∧ (h.resume = c.resumeSeen ∨ c.state ≠ .halted) ∧
      (h.stop = c.stopSeen ∨ (underway ∧ ¬Undisturbed s n))
    (h.stop ≠ c.stopSeen ∨ h.resume ≠ c.resumeSeen →
      swept (PartHalfReports n fun bytes => bytes[8]? = some h.stop ∧ bytes[9]? = some h.resume)) ∧
    (alone → Undisturbed s n → stop →
      (c.state = .ready → swept fun t =>
        HasHalted n .stopRequest s t ∧ kept (t.ctx n) ∧ absorbed (t.ctx n) ∧ tested (t.ctx n) ∧
        (still → DepartureTaken n s t)) ∧
      (c.state = .halted → swept fun t =>
        (t.ctx n).state = .halted ∧ (t.ctx n).halt = c.halt ∧ kept (t.ctx n) ∧ absorbed (t.ctx n) ∧
        (c.halt ≠ .badEntry → tested (t.ctx n))) ∧
      (c.state = .fetching → FetchStands s n tag → swept fun t =>
        (t.ctx n).state = .fetching ∧ (t.ctx n).pendingHalt = some .stopRequest ∧ kept (t.ctx n) ∧
        absorbed (t.ctx n) ∧ tested (t.ctx n)) ∧
      (c.state = .fetching → FetchMissing s n → h.resume = c.resumeSeen → swept fun t =>
        HasHalted n .stopRequest s t ∧ (t.ctx n).taken = c.taken - 1 ∧ (t.ctx n).retired = c.retired ∧
        absorbed (t.ctx n) ∧ tested (t.ctx n) ∧ (still → DepartureTaken n s t)) ∧
      (∀ st, InStep s n st → swept fun t =>
        CutTowardHalt n st .stopped .stopRequest s t ∧ absorbed (t.ctx n) ∧ tested (t.ctx n) ∧
        (st.op = .supply true → st.handed = false → (s.st n).power.supply = .ramping →
          (t.st n).power.supply = .off ∧ t.supplyEnable n = false ∧
          PartHalfReports n (fun bytes => bytes[11]? = some 0) t) ∧
        ((∀ on, st.op ≠ .supply on) ∨ st.handed = true ∨ (s.st n).power.supply ≠ .ramping →
          (t.st n).power.supply = (s.st n).power.supply) ∧
        ∀ line ch delay width k, st.op = .barrier line ch delay width → st.handed = false → c.cohort = some k →
          (∀ a ∈ (t.cohort k).arrived, a.station ≠ n) ∧ (OthersCalm s n data → (t.cohort k).live = (s.cohort k).live)) ∧
      (c.state = .posting → swept fun t =>
        (t.ctx n).state = .posting ∧ (t.ctx n).pendingHalt = some .stopRequest ∧ kept (t.ctx n) ∧
        absorbed (t.ctx n) ∧ tested (t.ctx n) ∧
        ((∀ last, c.posting ≠ .discard last) → (t.ctx n).posting = c.posting))) ∧
    (alone → c.disabling = false → h.enabled = false →
      let off (t : State) : Prop :=
        SwitchedOff n t ∧ OutOfCohort n t ∧ absorbed (t.ctx n) ∧ (t.ctx n).lastRead = c.lastRead
      (c.state ≠ .idle → still → swept (DepartureTaken n s)) ∧
      (c.state = .ready ∨ c.state = .halted → swept fun t =>
        HasArrivedIdle n t ∧ off t ∧ kept (t.ctx n) ∧
        (t.ctx n).halt = if c.state = .halted then c.halt else .none) ∧
      (c.state = .fetching → FetchStands s n tag → swept fun t =>
        (t.ctx n).state = .fetching ∧ (t.ctx n).disabling = true ∧ off t ∧ kept (t.ctx n)) ∧
      (c.state = .fetching → FetchMissing s n → swept fun t =>
        HasArrivedIdle n t ∧ off t ∧ (t.ctx n).taken = c.taken - 1 ∧ (t.ctx n).retired = c.retired) ∧
      (∀ st, InStep s n st → swept fun t =>
        (t.ctx n).state = .posting ∧ (t.ctx n).posting = .ordinary .stopped st.noticeFlag st.disp ∧
        (t.ctx n).disabling = true ∧ (t.ctx n).lastRun = c.retired ∧ kept (t.ctx n) ∧ off t ∧
        OutsideOutcomeOffered n st .stopped s t ∧ LinkCut n st s t) ∧
      (c.state = .posting → swept fun t =>
        (t.ctx n).state = .posting ∧ (t.ctx n).posting = c.posting ∧ (t.ctx n).disabling = true ∧ kept (t.ctx n) ∧
        off t)) ∧
    (alone → c.disabling = true → c.state ≠ .idle → c.state ≠ .halted → swept fun t =>
      t.ctx n = { c with stopSeen := h.stop, resumeSeen := h.resume }) ∧
    (alone → Undisturbed s n → resume →
      (c.state = .ready → swept fun t => t.notice.attention.getLsbD n = true ∧ NoticeAsked n s t) ∧
      (b.halt = .badEntry →
        (h.valid = true → swept (Enables (OthersCalm s n data) n h s)) ∧
        (h.valid = false → swept fun t =>
          CountsTaken h (t.ctx n) ∧ (t.ctx n).state = .halted ∧ (t.ctx n).halt = .badEntry ∧
          (t.ctx n).taken = h.origin ∧ (t.ctx n).lastRead = h.origin)) ∧
      (b.halt ≠ .badEntry → h.discard = false →
        (c.handoverPasses h.handover = true → swept fun t =>
          TakesNext b h.handover (t.ctx n) ∧ NextOffered n t ∧ (t.ctx n).halt = .none ∧ absorbed (t.ctx n) ∧
          (t.ctx n).settings = c.settings ∧ JoinsLive (OthersCalm s n data) n s t) ∧
        (c.handoverPasses h.handover = false → swept (HasHalted n .badHandover s))) ∧
      (b.halt ≠ .badEntry → h.discard = true → c.handoverPasses h.handover = true → h.handover = c.lastRead →
        b.badMark = false →
        swept fun t =>
          let d := t.ctx n
          d.halt = .none ∧ absorbed d ∧ d.retired = c.retired ∧ JoinsLive (OthersCalm s n data) n s t ∧
          (c.taken = c.lastRead → d.taken = c.taken ∧
            if t.engine.inRoom (.partHalf n) then d.state = .posting ∧ d.posting = .reported .discarded .continue
            else d.state = .ready) ∧
          (c.taken ≠ c.lastRead →
            d.state = .posting ∧ d.posting = .discard c.lastRead ∧ d.taken = c.taken + 1))) ∧
    (alone → absorbs → c.handoverPasses h.handover = true →
      (c.state = .ready → swept fun t =>
        TakesNext c h.handover (t.ctx n) ∧ NextOffered n t ∧ absorbed (t.ctx n)) ∧
      (c.state ≠ .ready → c.state ≠ .idle → (c.state = .halted → c.halt ≠ .badEntry) → swept fun t =>
        t.ctx n = { c with
          stopSeen := h.stop, resumeSeen := h.resume, lastRead := h.handover, badMark := false,
          posting := (t.ctx n).posting } ∧
        ((∀ last, c.posting ≠ .discard last) → (t.ctx n).posting = c.posting) ∧
        ∀ last, c.posting = .discard last → (t.ctx n).posting =
          .discard (if (h.handover - c.taken).toNat < (last - c.taken).toNat then h.handover else last))) ∧
    (alone → absorbs → c.handoverPasses h.handover = false →
      (c.state = .ready → swept fun t =>
        HasHalted n .badHandover s t ∧ kept (t.ctx n) ∧ absorbed (t.ctx n) ∧ (t.ctx n).lastRead = c.lastRead ∧
        (still → DepartureTaken n s t)) ∧
      (c.state = .halted → swept fun t => t.ctx n = { c with stopSeen := h.stop, resumeSeen := h.resume }) ∧
      (underway → swept fun t =>
        t.ctx n = { c with stopSeen := h.stop, resumeSeen := h.resume, badMark := true }))

/-! ### The probe link -/

/-- A QUERY ends LINE_STUCK in LINE_FAULT, begins its break in IDLE with the line recessive, and waits otherwise until the
break may begin; the break takes the line low but for one held high from outside (R63, R64, R67; log entry 35). That a
falling edge before BREAK_BEGIN keeps the QUERY waiting is the model's choice (log entry 57). -/
def Obligations.QueryBeginsBreakOrWaits : Prop :=
  (∀ (s : State) (n : StationId) (st : InFlight) (q : QuerySpec), Handed s n st (.query q) →
    ((s.st n).link.state = .lineFault →
      Completes (exec (.query n) s) fun t => StepEndsAlone n st .lineStuck [0, 0, 0, 0xFF] s t) ∧
    ((s.st n).link.state = .idle → (s.st n).link.high = true →
      Completes (exec (.query n) s) fun t =>
        t.ctx n = { s.ctx n with step := some st.taken } ∧ OnlyStationUnits n s t ∧ BreakBegun n s t) ∧
    ((s.st n).link.state ≠ .lineFault → ((s.st n).link.state = .idle → (s.st n).link.high = false) →
      Completes (exec (.query n) s) fun t =>
        OnlyStation n s t ∧ t.st n = { s.st n with
          ctx := { s.ctx n with step := some st.taken }, link := { (s.st n).link with waiting := true } })) ∧
  ∀ (s : State) (n : StationId), (s.st n).link.waiting = true → (s.st n).link.state = .idle →
    (s.st n).link.high = true → (s.st n).link.recog = none →
    Completes (exec (.breakBegin n) s) fun t => t.ctx n = s.ctx n ∧ OnlyStationUnits n s t ∧ BreakBegun n s t

/-- After the break the delimiter, after the delimiter the bytes of the query; sent, the query ends OK or awaits its answer
with the deadline started; a mismatched bit ends it with BIT_ERROR (R54, R61, R64, R67, R68). -/
def Obligations.QueryIsSentOrEndsInBitError : Prop :=
  ∀ (s : State) (n : StationId), (s.st n).link.bitEnd = true →
    let l := (s.st n).link
    (l.mismatch = false → l.state = .break → Completes (exec (.breakEnd n) s) fun t =>
      OnlyStationUnits n s t ∧ t.ctx n = s.ctx n ∧ (t.st n).link.state = .delimit ∧
      (t.st n).link.bits = List.replicate l.copy.delimiter true ∧ (t.st n).link.drives = false) ∧
    ∀ st q, Flying s n st (.query q) →
      (l.mismatch = false → l.state = .delimit → Completes (exec (.delimiterEnd n) s) fun t =>
        OnlyStationUnits n s t ∧ t.ctx n = s.ctx n ∧ (t.st n).link.state = .send ∧
        (t.st n).link.bits = (queryFrame q l.copy.short).flatMap (frameBits l.copy.stopBits) ∧
        (t.st n).link.drives = true) ∧
      (l.mismatch = false → l.state = .send → q.expectAnswer = false → Completes (exec (.querySent n) s) fun t =>
        StepEnds n st .ok [0, 0, 0, 0xFF] s t ∧ OnlyStationEngineUnits n s t ∧ (t.st n).link.state = .idle) ∧
      (l.mismatch = false → l.state = .send → q.expectAnswer = true → Completes (exec (.querySent n) s) fun t =>
        OnlyStationUnits n s t ∧ t.ctx n = waitingCtx s n st 50 ∧ (t.st n).link.state = .awaitAnswer ∧
        (t.st n).link.status = 0 ∧ (t.st n).link.len = 0 ∧ (t.st n).link.count = 0 ∧ (t.st n).link.buffer = []) ∧
      (l.mismatch = true → l.state = .break ∨ l.state = .delimit ∨ l.state = .send →
        Completes (exec (.bitError n) s) fun t => ReceptionFails n st .bitError [0, 0, 0, 0xFF] s t)

/-- An answer is received byte by byte: LEAD, STATUS, LEN, payload, CHECK, with the first error ending it; a complete
answer ends OK or STATUS_MISMATCH with the link IDLE (R69, R70, R72, R73, R74). -/
def Obligations.AnswerBytesAreJudgedInOrder : Prop :=
  ∀ (s : State) (n : StationId),
    let l := (s.st n).link
    let c := l.count
    let m : Link := { l with done := none, count := c + 1 }
    (l.state = .awaitAnswer → l.startDue = true → Completes (exec (.answerStart n) s) fun t =>
      OnlyStation n s t ∧ t.ctx n = { s.ctx n with deadline := none } ∧ (t.st n).link.state = .receive ∧
      (t.st n).link.inByte = true ∧ (t.st n).link.rxBits = [] ∧ (t.st n).link.startDue = false) ∧
    ∀ st q, Flying s n st (.query q) → l.state = .receive →
      (∀ bits, l.done = some bits → bits.head? ≠ some false ∨ false ∈ bits.drop 9 →
        Completes (exec (.answerByte n) s) fun t => ReceptionFails n st .answerFrame
          ([l.status, l.len, BitVec.ofNat 8 c, BitVec.ofNat 8 c] ++ l.buffer) s t) ∧
      ∀ b : Byte, l.done = some (frameBits l.copy.stopBits b) →
        (c = 0 → b = 0x69 → Completes (exec (.answerByte n) s) (LinkBecomes n m s)) ∧
        (c = 0 → b ≠ 0x69 → Completes (exec (.answerByte n) s) fun t =>
          ReceptionFails n st .answerLead ([l.status, l.len, 1, 0] ++ l.buffer) s t) ∧
        (c = 1 → Completes (exec (.answerByte n) s) (LinkBecomes n { m with status := b } s)) ∧
        (c = 2 → b.toNat ≤ 16 → Completes (exec (.answerByte n) s) (LinkBecomes n { m with len := b } s)) ∧
        (c = 2 → 16 < b.toNat → Completes (exec (.answerByte n) s) fun t =>
          ReceptionFails n st .answerLength ([l.status, b, 3, 2] ++ l.buffer) s t) ∧
        (3 ≤ c → c < 3 + l.len.toNat →
          Completes (exec (.answerByte n) s) (LinkBecomes n { m with buffer := l.buffer ++ [b] } s)) ∧
        (3 + l.len.toNat ≤ c → b ≠ answerCheck l → Completes (exec (.answerByte n) s) fun t =>
          ReceptionFails n st .answerCheck
            ([l.status, l.len, BitVec.ofNat 8 (c + 1), BitVec.ofNat 8 c] ++ l.buffer) s t) ∧
        (3 + l.len.toNat ≤ c → b = answerCheck l → Completes (exec (.answerByte n) s) fun t =>
          StepEnds n st (if q.expectStatus = true ∧ l.status ≠ q.status then .statusMismatch else .ok)
            ([l.status, l.len, BitVec.ofNat 8 (c + 1), 0xFF] ++ l.buffer) s t ∧
          OnlyStationEngineUnits n s t ∧ (t.st n).link.state = .idle)

/-- Silence ends an answer: the deadline in AWAIT_ANSWER with NO_ANSWER, the gap limit in RECEIVE with GAP_TIMEOUT, and the
rest of the line in RECOVER returns the link to IDLE (R69, R71, R75). -/
def Obligations.SilenceEndsAnswerAndRecovery : Prop :=
  ∀ (s : State) (n : StationId),
    let l := (s.st n).link
    (∀ st, (s.ctx n).step = some st → l.state = .awaitAnswer → (s.ctx n).deadline = some 0 →
      Completes (exec (.noAnswer n) s) fun t => ReceptionFails n st .noAnswer [0, 0, 0, 0] s t) ∧
    (∀ st, (s.ctx n).step = some st → l.state = .receive → l.inByte = false → l.done = none → l.wait = some 0 →
      Completes (exec (.gapTimeout n) s) fun t => ReceptionFails n st .gapTimeout
        ([l.status, l.len, BitVec.ofNat 8 l.count, BitVec.ofNat 8 l.count] ++ l.buffer) s t) ∧
    (l.state = .recover → l.wait = some 0 → Completes (exec (.recoverEnd n) s) fun t =>
      OnlyStationUnits n s t ∧ t.ctx n = s.ctx n ∧ (t.st n).link.state = .idle ∧ (t.st n).link.wait = none)

/-- A level on PROBE, which is that of the drives but on a line held high from outside (R67, log entry 35), begins with
its age at 0 and the state it began in, is an edge for the units, and a pulse of an IDLE link, one of exactly 25 ms
included (log entry 19), is recognised at its end, and no other level (R77, R80); the link takes the edge by its state:
the answer's first in AWAIT_ANSWER, the next byte in RECEIVE, the wait discarded or begun again in RECOVER (R60, R69, R70,
R71, R75). It is the model's choice that an edge discards a wait that is complete but not taken (log entry 45), goes on
with the accumulator as it stands when a wait begins again (log entry 21), begins no answer while QUERY_SENT is not taken
(log entry 54), begins a byte, no attention level, while a complete answer is not taken (log entry 56), and begins a level
of IDLE while a break that may begin is not taken (log entry 57); and that a rise in RECOVER taken as the level reaches 25
ms ends it first (log entry 59). A line dominant for 25 ms enters LINE_FAULT and ends a QUERY and queues a part-half
write, and 1 ms recessive ends it (R78, R79, R3, R168). -/
def Obligations.ProbeLevelsAndTheStuckLine : Prop :=
  ∀ (s : State) (n : StationId),
    let l := (s.st n).link
    (∀ outside : ProbeDrive, Completes (exec (.probeEdge n outside) s) fun t =>
      let m := (t.st n).link
      OnlyStationUnits n s t ∧ t.ctx n = s.ctx n ∧ m.state = l.state ∧ m.outside = outside ∧
      m.high = (outside == .high || (outside == .released && !l.drives)) ∧ m.mon.high = m.high ∧
      (m.high = l.mon.high → m = { l with outside := outside } ∧ t.units = s.units) ∧
      (m.high ≠ l.mon.high → m.mon.age = 0 ∧ m.mon.beganIn = l.state ∧
        m.mon.attnMin = (s.ctx n).settings.attnMin ∧ UnitsSee n .probe m.high s t ∧
        LevelTaken { l with outside := outside, mon := m.mon } m) ∧
      let pulse := m.high = true ∧ l.mon.high = false ∧ l.state = .idle ∧ l.mon.beganIn = .idle ∧
        l.mon.attnMin * 25000 ≤ l.mon.age ∧ l.mon.age ≤ 625000
      (pulse → m.recog = some s.now) ∧ (¬pulse → m.recog = l.recog)) ∧
    (l.mon.high = false → 625000 ≤ l.mon.age → l.state ≠ .lineFault →
      Completes (exec (.lineFaultEntry n) s) fun t =>
        OnlyStationShared n s t ∧ (t.st n).link.state = .lineFault ∧ (t.st n).link.drives = false ∧
        (t.st n).link.faultCount = l.faultCount + 1 ∧ (t.st n).link.waiting = false ∧
        (∀ st q, Flying s n st (.query q) → StepEndsAmid n st .lineStuck [0, 0, 0, 0xFF] s t ∧
          PartHalfReports n (fun bytes => bytes[14]? = some (l.faultCount + 1)) t) ∧
        ((∀ st q, ¬Flying s n st (.query q)) → t.ctx n = s.ctx n ∧
          PartHalfUpdates n (partHalfBytes (t.st n) s.now) s t ∧ AwaitsUntilTaken n s t)) ∧
    (l.state = .lineFault → l.mon.high = true → 25000 ≤ l.mon.age →
      Completes (exec (.lineFaultEnd n) s) fun t =>
        OnlyStationUnits n s t ∧ t.ctx n = s.ctx n ∧ (t.st n).link.state = .idle)

/-- AWAIT_ATTENTION consumes the latch, or waits with a clear latch; a recognition ends a waiting step or sets the latch,
raises the count, queues a part-half write and starts the ARMED units of start condition ATTENTION; the deadline ends the
step with NO_ATTENTION (R81, R83, R84, R125, R3, R168). -/
def Obligations.AttentionIsLatchedConsumedOrMissed : Prop :=
  (∀ (s : State) (n : StationId) (st : InFlight) (fresh : Bool), Handed s n st (.awaitAttention fresh) →
    (∀ stamp, (s.st n).link.latch = some stamp → fresh = false →
      Completes (exec (.awaitAttention n) s) fun t =>
        StepEnds n st .ok (leBytes 4 stamp.toNat) s t ∧ OnlyStationEngine n s t ∧
        t.st n = { s.st n with ctx := t.ctx n, link := { (s.st n).link with latch := none } }) ∧
    ((s.st n).link.latch = none ∨ fresh = true →
      Completes (exec (.awaitAttention n) s) fun t =>
        OnlyStation n s t ∧ t.st n = { s.st n with
          ctx := waitingCtx s n st 30000, link := { (s.st n).link with latch := none } })) ∧
  (∀ (s : State) (n : StationId) (stamp : Word), (s.st n).link.recog = some stamp →
    Completes (exec (.attentionRecognition n) s) fun t =>
      OnlyStationShared n s t ∧ (t.st n).link.attnCount = (s.st n).link.attnCount + 1 ∧
      (t.st n).link.recog = none ∧
      (∀ u, t.unit u =
        if (s.unit u).binding.map Prod.fst = some n ∧ (s.unit u).state = .armed ∧ (s.unit u).arm.start = .attention then
          (s.unit u).begin stamp
        else s.unit u) ∧
      (∀ st fresh, Flying s n st (.awaitAttention fresh) →
        (t.st n).link.latch = none ∧ StepEndsAmid n st .ok (leBytes 4 stamp.toNat) s t ∧
        PartHalfReports n (fun bytes => bytes[13]? = some ((s.st n).link.attnCount + 1)) t) ∧
      ((∀ st fresh, ¬Flying s n st (.awaitAttention fresh)) →
        (t.st n).link.latch = some ((s.st n).link.latch.getD stamp) ∧ t.ctx n = s.ctx n ∧
        PartHalfUpdates n (partHalfBytes (t.st n) s.now) s t ∧ AwaitsUntilTaken n s t)) ∧
  ∀ (s : State) (n : StationId) (st : InFlight) (fresh : Bool), Flying s n st (.awaitAttention fresh) →
    (s.ctx n).deadline = some 0 →
    Completes (exec (.noAttention n) s) fun t => StepEndsAlone n st .noAttention [] s t

/-! ### Actuator channels -/

/-- PRESS on an IDLE channel begins with its delay or at once with the pulse, one tick added; detached it ends OK with the
assertion stamp of a pulse begun at once, attached it waits; any other channel is ACTUATOR_BUSY (R87 to R91). -/
def Obligations.PressTakesIdleChannelOrIsBusy : Prop :=
  ∀ (s : State) (n : StationId) (st : InFlight) (c : ChannelId) (delay width : Nat),
    Handed s n st (.press c delay width) →
    ((s.chan n c).state ≠ .idle →
      Completes (exec (.press n) s) fun t => StepEndsAlone n st .actuatorBusy [] s t) ∧
    ((s.chan n c).state = .idle → Completes (exec (.press n) s) fun t =>
      OnlyChannel n c s t ∧
      t.chan n c =
        { state := if delay = 0 then .asserted else .delay,
          timer := some ((if delay = 0 then width else delay) + 1), pulse := .press width st.attached, shadow := none,
          stamp := if delay = 0 then s.now else (s.chan n c).stamp } ∧
      OutputEdge n c (decide (delay = 0)) true s t ∧
      (st.attached = true → t.ctx n = { s.ctx n with step := some st.taken } ∧ t.engine = s.engine) ∧
      (st.attached = false → StepEnds n st .ok (if delay = 0 then leBytes 4 s.now.toNat else []) s t))

/-- TAP begins a period or loads the shadow, HOLD holds, LIFT returns one channel or all to IDLE (their stamps
cleared, log entry 20); a channel in DELAY or
ASSERTED, and for TAP one in HELD, is ACTUATOR_BUSY (R93, R95, R97, R98). -/
def Obligations.TapHoldAndLiftActOnTheChannel : Prop :=
  (∀ (s : State) (n : StationId) (st : InFlight) (c : ChannelId) (period width count : Nat),
    Handed s n st (.tap c period width count) →
    ((s.chan n c).state = .idle → Completes (exec (.tap n) s) fun t =>
      StepEnds n st .ok [] s t ∧ OnlyChannel n c s t ∧ OutputEdge n c true true s t ∧
      t.chan n c =
        { state := .tapOn, timer := some (width + 1),
          pulse := .tap period width (if count = 0 then none else some (count - 1)), shadow := none, stamp := s.now }) ∧
    ((s.chan n c).state = .tapOn ∨ (s.chan n c).state = .tapOff → Completes (exec (.tap n) s) fun t =>
      StepEnds n st .ok [] s t ∧ OnlyChannel n c s t ∧ OutputEdge n c false false s t ∧
      t.chan n c = { s.chan n c with shadow := some { period := period, width := width, count := count } }) ∧
    ((s.chan n c).state = .delay ∨ (s.chan n c).state = .asserted ∨ (s.chan n c).state = .held →
      Completes (exec (.tap n) s) fun t => StepEndsAlone n st .actuatorBusy [] s t)) ∧
  (∀ (s : State) (n : StationId) (st : InFlight) (c : ChannelId), Handed s n st (.hold c) →
    ((s.chan n c).state = .idle ∨ (s.chan n c).state = .tapOn ∨ (s.chan n c).state = .tapOff →
      Completes (exec (.hold n) s) fun t =>
        StepEnds n st .ok [] s t ∧ OnlyChannel n c s t ∧ OutputEdge n c (!(s.chan n c).output) true s t ∧
        t.chan n c =
          { state := .held, timer := none, pulse := .none, shadow := none,
            stamp := if (s.chan n c).output then (s.chan n c).stamp else s.now }) ∧
    ((s.chan n c).state = .held → Completes (exec (.hold n) s) fun t => StepEndsAlone n st .ok [] s t) ∧
    ((s.chan n c).state = .delay ∨ (s.chan n c).state = .asserted →
      Completes (exec (.hold n) s) fun t => StepEndsAlone n st .actuatorBusy [] s t)) ∧
  ∀ (s : State) (n : StationId) (st : InFlight),
    (∀ c, Handed s n st (.lift (some c)) → Completes (exec (.lift n) s) fun t =>
      StepEnds n st .ok [] s t ∧ OnlyChannel n c s t ∧ OutputEdge n c (s.chan n c).output false s t ∧
      t.chan n c = Channel.initial) ∧
    (Handed s n st (.lift none) → Completes (exec (.lift n) s) fun t =>
      StepEnds n st .ok [] s t ∧ OnlyStationEngineUnits n s t ∧
      t.st n = { s.st n with ctx := t.ctx n, chans := (t.st n).chans } ∧ ∀ c, t.chan n c = Channel.initial)

/-- The ends of a channel's phases: a delay ends in the pulse, a pulse in IDLE with the stamp cleared (log entry 20; an
attached PRESS ends with its two stamps), a tap's on-phase in its off-phase, and a period in the shadow's tap, the next
period or IDLE (R90, R91, R94, R96). -/
def Obligations.ChannelPhasesEndAsTimed : Prop :=
  ∀ (s : State) (n : StationId) (c : ChannelId), (s.chan n c).timer = some 0 →
    let x := s.chan n c
    (∀ width att, x.state = .delay → x.pulse = .press width att → Completes (exec (.delayEnd n c) s) fun t =>
      OnlyChannel n c s t ∧ t.ctx n = s.ctx n ∧ t.engine = s.engine ∧ OutputEdge n c true true s t ∧
      t.chan n c = { x with state := .asserted, timer := some width, stamp := s.now }) ∧
    (x.state = .asserted → Completes (exec (.pressWidthEnd n c) s) fun t =>
      OnlyChannel n c s t ∧ OutputEdge n c true false s t ∧ t.chan n c = Channel.initial ∧
      (∀ width st delay w, x.pulse = .press width true → Flying s n st (.press c delay w) →
        StepEnds n st .ok (leBytes 4 x.stamp.toNat ++ leBytes 4 s.now.toNat) s t) ∧
      (∀ width, x.pulse = .press width false → t.ctx n = s.ctx n ∧ t.engine = s.engine)) ∧
    (∀ period width left, x.state = .tapOn → x.pulse = .tap period width left →
      Completes (exec (.tapOnEnd n c) s) fun t =>
        OnlyChannel n c s t ∧ t.ctx n = s.ctx n ∧ t.engine = s.engine ∧ OutputEdge n c true false s t ∧
        t.chan n c = { x with state := .tapOff, timer := some (period - width) }) ∧
    (x.state = .tapOff → Completes (exec (.periodBoundary n c) s) fun t =>
      OnlyChannel n c s t ∧ t.ctx n = s.ctx n ∧ t.engine = s.engine ∧
      (∀ sh, x.shadow = some sh → OutputEdge n c true true s t ∧ t.chan n c =
        { state := .tapOn, timer := some sh.width,
          pulse := .tap sh.period sh.width (if sh.count = 0 then none else some (sh.count - 1)), shadow := none,
          stamp := s.now }) ∧
      (∀ period width, x.shadow = none → x.pulse = .tap period width none →
        OutputEdge n c true true s t ∧ t.chan n c = { x with state := .tapOn, timer := some width, stamp := s.now }) ∧
      (∀ period width k, x.shadow = none → x.pulse = .tap period width (some (k + 1)) →
        OutputEdge n c true true s t ∧ t.chan n c =
          { x with state := .tapOn, timer := some width, pulse := .tap period width (some k), stamp := s.now }) ∧
      (∀ period width, x.shadow = none → x.pulse = .tap period width (some 0) →
        OutputEdge n c false false s t ∧ t.chan n c = Channel.initial))

/-! ### Seat and supply -/

/-- SUPPLY ON needs the seat, ends at once when the supply is ON, and else ramps with the deadline counting, tripping at
once while TRIP is accepted high; SUPPLY OFF puts the supply OFF and ends OK; a change of the supply state queues a part-half
write (R108, R109, R110, R113, R115). -/
def Obligations.SupplyStepRampsEndsOrTrips : Prop :=
  ∀ (s : State) (n : StationId) (st : InFlight),
    (Handed s n st (.supply true) →
      let p := (s.st n).power
      (p.seated = false → Completes (exec (.supply n) s) fun t =>
        StepEndsAlone n st .notSeated [BitVec.ofNat 8 p.supply.code] s t) ∧
      (p.seated = true → p.supply = .on → Completes (exec (.supply n) s) fun t =>
        StepEndsAlone n st .ok [2] s t) ∧
      (p.seated = true → p.supply = .off ∨ p.supply = .tripped → p.trip.accepted = false →
        Completes (exec (.supply n) s) fun t =>
          OnlyStationShared n s t ∧ t.ctx n = waitingCtx s n st 500 ∧ (t.st n).power.supply = .ramping ∧
          t.supplyEnable n = true ∧ (t.st n).power.tripCount = p.tripCount ∧
          PartHalfReports n (fun bytes => bytes[11]? = some 1) t) ∧
      (p.seated = true → p.supply = .off ∨ p.supply = .tripped → p.trip.accepted = true → Undisturbed s n →
        Completes (exec (.supply n) s) fun t =>
          CutTowardHalt n st .supplyTrip .supplyTrip s t ∧ (t.st n).power.supply = .tripped ∧
          t.supplyEnable n = false ∧ (t.st n).power.tripCount = p.tripCount + 1)) ∧
    (Handed s n st (.supply false) → Completes (exec (.supply n) s) fun t =>
      OnlyStationShared n s t ∧ StepEndsAmid n st .ok [0] s t ∧ (t.st n).power.supply = .off ∧
      t.supplyEnable n = false ∧
      ((s.st n).power.supply ≠ .off → PartHalfReports n (fun bytes => bytes[11]? = some 0) t))

/-- In RAMPING an accepted rise of SUPPLY_GOOD ends the step OK with the supply ON and its loss filter running, and the
deadline ends it with NO_SUPPLY_GOOD and the supply OFF, each with a part-half write queued (R108, R110, R111, R114). -/
def Obligations.RampEndsOnOrOff : Prop :=
  ∀ (s : State) (n : StationId) (st : InFlight), (s.st n).power.supply = .ramping → (s.ctx n).step = some st →
    ((s.st n).power.goodRise = true → Completes (exec (.supplyGoodRise n) s) fun t =>
      OnlyStationShared n s t ∧ StepEndsAmid n st .ok [2] s t ∧ (t.st n).power.supply = .on ∧
      PartHalfReports n (fun bytes => bytes[11]? = some 2) t ∧
      (t.st n).power.loss =
        if (s.st n).power.good.raw then none else some (250 * (s.ctx n).settings.tripFilter)) ∧
    ((s.ctx n).deadline = some 0 → Completes (exec (.noSupplyGood n) s) fun t =>
      OnlyStationShared n s t ∧ StepEndsAmid n st .noSupplyGood [0] s t ∧ (t.st n).power.supply = .off ∧
      t.supplyEnable n = false ∧ PartHalfReports n (fun bytes => bytes[11]? = some 0) t)

/-- A trip, by an accepted rise of TRIP or by the loss of SUPPLY_GOOD, puts the supply into TRIPPED, raises its count and
queues a part-half write that carries both; a station at a step ends it with SUPPLY_TRIP, its block stopping it (R76, R92,
R136, R140, R154), a READY one halts, a FETCHING one halts when its read has ended, a POSTING one when it has posted, and
an IDLE, HALTED or already disturbed one stays (R33, R42, R113, R114, R115; log entry 15). A halt at once may complete the
round of others (R148, R149, R155). What a step ended before its block has taken it leaves undone, and the result byte of
such a SUPPLY OFF, is the model's choice (log entries 7 and 47). That a send begins after the part-half updates of its own
event is the model's reading (log entry 10). -/
def Obligations.TripStopsTheStation : Prop :=
  ∀ (s : State) (n : StationId) (i : Instr),
    (i = .tripAccepted n ∧ (s.st n).power.tripRise = true ∧
        ((s.st n).power.supply = .ramping ∨ (s.st n).power.supply = .on) ∨
      i = .lossOfSupplyGood n ∧ (s.st n).power.supply = .on ∧ (s.st n).power.loss = some 0) →
    Completes (exec i s) fun t =>
      (t.st n).power.supply = .tripped ∧ (t.st n).power.tripCount = (s.st n).power.tripCount + 1 ∧
      t.supplyEnable n = false ∧
      PartHalfReports n (fun bytes => bytes[11]? = some 3 ∧ bytes[15]? = some ((s.st n).power.tripCount + 1)) t ∧
      (Undisturbed s n → ∀ st, InStep s n st → CutTowardHalt n st .supplyTrip .supplyTrip s t) ∧
      (Undisturbed s n → HaltsAtRest n .supplyTrip s t) ∧
      ((s.ctx n).state = .idle ∨ (s.ctx n).state = .halted ∨ ¬Undisturbed s n → t.ctx n = s.ctx n)

/-- A run of 20 ticks changes the debounced seat, sets the attention bit with the notice it asks for (R179, R180), raises
the count and queues a part-half write; at a change to EMPTY a supply in RAMPING or ON goes OFF and the station is
unseated by its state, as by a trip, the block of its step stopping it (R76, R92, R136, R140, R154); a first evaluation
that finds it open only sets the mark (R33, R42, R105, R106, R107, R117; log entry 15). A halt at once may complete the
round of others (R155). The model's choices: the SEAT edge stands in the units' inboxes before the unseat ends a step, so
a COLLECT that waits on SEAT ends UNSEATED (log entry 46), and what a step ended before its block has taken it leaves
undone, with the result byte of such a SUPPLY OFF (log entries 7 and 47). That a send begins after the part-half updates
of its own event is the model's reading (log entry 10). -/
def Obligations.SeatChangesAfterTwentyTicks : Prop :=
  (∀ (s : State) (n : StationId), (s.st n).power.evaluated = false → (s.st n).power.run = 20 →
    ((s.st n).power.runDir = some true → Completes (exec (.firstEvaluation n) s) fun t =>
      (t.st n).power.seated = true ∧ (t.st n).power.evaluated = true ∧ (t.st n).power.run = 0 ∧
      (t.st n).power.seatCount = (s.st n).power.seatCount + 1 ∧ t.notice.attention.getLsbD n = true ∧
      NoticeFollows n s t ∧ PartHalfReports n (ShowsPartHalf n t) t ∧ t.ctx n = s.ctx n ∧ UnitsSee n .seat true s t) ∧
    ((s.st n).power.runDir = some false → Completes (exec (.firstEvaluation n) s) fun t =>
      OnlyStation n s t ∧ t.st n = { s.st n with
        power := { (s.st n).power with evaluated := true, run := 0, runDir := none } })) ∧
  ∀ (s : State) (n : StationId), (s.st n).power.evaluated = true → (s.st n).power.run = 20 →
    ((s.st n).power.seated = false → Completes (exec (.seatChange n) s) fun t =>
      (t.st n).power = { (s.st n).power with
        seated := true, run := 0, runDir := none, seatCount := (s.st n).power.seatCount + 1 } ∧
      t.notice.attention.getLsbD n = true ∧ NoticeFollows n s t ∧ PartHalfReports n (ShowsPartHalf n t) t ∧
      t.ctx n = s.ctx n ∧ UnitsSee n .seat true s t) ∧
    ((s.st n).power.seated = true → Completes (exec (.seatChange n) s) fun t =>
      (t.st n).power.seated = false ∧ (t.st n).power.run = 0 ∧
      (t.st n).power.seatCount = (s.st n).power.seatCount + 1 ∧ t.notice.attention.getLsbD n = true ∧
      NoticeFollows n s t ∧
      ((s.ctx n).state = .idle ∨ (s.ctx n).state = .halted ∨ (s.ctx n).state = .posting ∨ ¬Undisturbed s n →
        UnitsSee n .seat false s t) ∧
      (t.st n).power.supply =
        (if (s.st n).power.supply = .ramping ∨ (s.st n).power.supply = .on then .off else (s.st n).power.supply) ∧
      PartHalfReports n (fun bytes => bytes[10]? = some 0 ∧ bytes[16]? = some ((s.st n).power.seatCount + 1) ∧
        bytes[11]? = some (BitVec.ofNat 8 (t.st n).power.supply.code)) t ∧
      (Undisturbed s n → ∀ st, InStep s n st → CutTowardHalt n st .unseated .unseated s t) ∧
      (Undisturbed s n → HaltsAtRest n .unseated s t) ∧
      ((s.ctx n).state = .idle ∨ (s.ctx n).state = .halted ∨ ¬Undisturbed s n → t.ctx n = s.ctx n))

/-- A raw level that differs from the accepted one begins a candidate with the filter time, one that agrees drops a candidate
that has not lasted it, and in the first period after a reset it is taken as accepted (log entry 24); a candidate that has
lasted is accepted, its edge handed to the consumers, and a level that has returned begins the next (log entry 43); in ON a
low SUPPLY_GOOD begins the loss candidate and a high one drops it (log entry 38); nothing else of the station changes (R56,
R57, R58, R114). A candidate counts the periods after its command (log entry 30). -/
def Obligations.InputsPassTheirFilters : Prop :=
  (∀ (s : State) (n : StationId) (high : Bool), Completes (exec (.inputChange (.seat n) high) s) fun t =>
    OnlyStation n s t ∧ t.st n = { s.st n with power := { (s.st n).power with rawSeat := high } }) ∧
  (∀ (s : State) (n : StationId) (p : FilteredPin) (high : Bool),
    Completes (exec (.inputChange (.filtered (.station n p)) high) s) fun t =>
      let v := (s.ctx n).settings
      let w := (s.st n).power
      OnlyStation n s t ∧ t.ctx n = s.ctx n ∧ (t.st n).chans = (s.st n).chans ∧ (t.st n).link = (s.st n).link ∧
      (∀ q, q ≠ p → (t.st n).filter q = (s.st n).filter q) ∧
      (t.st n).filter p = filterLevel ((s.st n).filter p) s.time.firstPeriod high (filterTime v p) ∧
      (t.st n).power = { w with
        good := (t.st n).power.good, trip := (t.st n).power.trip,
        loss := if p = .supplyGood ∧ w.supply = .on then
            (if high then none else some (w.loss.getD (250 * v.tripFilter)))
          else w.loss }) ∧
  (∀ (s : State) (l : Line) (high : Bool), Completes (exec (.inputChange (.filtered (.sync l)) high) s) fun t =>
    t = { s with lineA := t.lineA, lineB := t.lineB } ∧ (∀ m, m ≠ l → t.line m = s.line m) ∧
    t.line l = { s.line l with
      others := high, filter := filterLevel (s.line l).filter s.time.firstPeriod (t.line l).pin 125 }) ∧
  (∀ (s : State) (n : StationId) (p : FilteredPin), ((s.st n).filter p).cand = some 0 →
    Completes (exec (.filterAcceptance (.station n p)) s) fun t =>
      let high := !((s.st n).filter p).accepted
      let w := (s.st n).power
      OnlyStationUnits n s t ∧ t.ctx n = s.ctx n ∧ (t.st n).chans = (s.st n).chans ∧ (t.st n).link = (s.st n).link ∧
      (∀ q, q ≠ p → (t.st n).filter q = (s.st n).filter q) ∧
      (t.st n).filter p = filterAccepted ((s.st n).filter p) (filterTime (s.ctx n).settings p) ∧
      (t.st n).power = { w with
        good := (t.st n).power.good, trip := (t.st n).power.trip,
        goodRise := w.goodRise || (p == .supplyGood && high && w.supply == .ramping),
        tripRise := w.tripRise || (p == .trip && high && (w.supply == .ramping || w.supply == .on)) } ∧
      (p = .sense0 → UnitsSee n .sense0 high s t) ∧ (p = .sense1 → UnitsSee n .sense1 high s t) ∧
      (p = .supplyGood → UnitsSee n .supplyGood high s t) ∧ (p = .trip → t.units = s.units)) ∧
  ∀ (s : State) (l : Line), (s.line l).filter.cand = some 0 →
    Completes (exec (.filterAcceptance (.sync l)) s) fun t =>
      t = { s with lineA := t.lineA, lineB := t.lineB } ∧ (∀ m, m ≠ l → t.line m = s.line m) ∧
      t.line l = { s.line l with
        filter := filterAccepted (s.line l).filter 125,
        riseDue := (s.line l).riseDue || !(s.line l).filter.accepted,
        fallDue := (s.line l).fallDue || (s.line l).filter.accepted }

/-! ### The Measurement Unit Pool -/

/-- ARM ends SLOT_BUSY when the slot holds a unit, is bound at once to the lowest-numbered FREE unit, and otherwise waits at
the end of the unit wait list with its deadline counting (R123, R125, R126, R132, R133). -/
def Obligations.ArmBindsTheLowestFreeUnitOrWaits : Prop :=
  ∀ (s : State) (n : StationId) (st : InFlight) (slot : SlotId) (a : ArmSettings), Handed s n st (.arm slot a) →
    (∀ u, (s.unit u).binding = some (n, slot) →
      Completes (exec (.arm n) s) fun t => StepEndsAlone n st .slotBusy [] s t) ∧
    ((∀ u, (s.unit u).binding ≠ some (n, slot)) →
      (∀ u, (s.unit u).state = .free → (∀ v, v < u → (s.unit v).state ≠ .free) →
        Completes (exec (.arm n) s) fun t =>
          StepEnds n st .ok [BitVec.ofNat 8 u.1, 0, 0, 0, 0, 0, 0, 0] s t ∧ OnlyStationEngineUnits n s t ∧
          t.st n = { s.st n with ctx := t.ctx n } ∧ (∀ v, v ≠ u → t.unit v = s.unit v) ∧
          (t.unit u).binding = some (n, slot) ∧ (t.unit u).arm = a ∧ (t.unit u).inbox = [] ∧
          (t.unit u).obsX = s.signalLevel n a.x ∧ (t.unit u).obsY = s.signalLevel n a.y ∧
          (a.start ≠ .immediate → (t.unit u).state = .armed ∧ (t.unit u).window = some (a.window + 1)) ∧
          (a.start = .immediate → (t.unit u).state = .running ∧ (t.unit u).startStamp = s.now ∧
            (a.kind = .frequency → (t.unit u).window = none ∧ (t.unit u).gate = some (25 * a.gate)) ∧
            (a.kind ≠ .frequency → (t.unit u).window = some (a.window + 1) ∧ (t.unit u).gate = none))) ∧
      ((∀ u, (s.unit u).state ≠ .free) → Completes (exec (.arm n) s) fun t =>
        t = { s with
          stations := t.stations,
          waitList := s.waitList ++ [{ station := n, slot := slot, arm := a, start := st.start }] } ∧
        t.ctx n = { waitingCtx s n st 1000 with state := .waitingUnit } ∧ ∀ m, m ≠ n → t.st m = s.st m))

/-- COLLECT ends SLOT_EMPTY on an empty slot, waits for a unit that is not DONE, and with a DONE unit ends with its result
and frees it; a freed unit goes at once to the head of the unit wait list (R134, R138, R139). -/
def Obligations.CollectTakesTheResultAndFreesTheUnit : Prop :=
  ∀ (s : State) (n : StationId) (st : InFlight) (slot : SlotId), Handed s n st (.collect slot) →
    ((∀ u, (s.unit u).binding ≠ some (n, slot)) →
      Completes (exec (.collect n) s) fun t => StepEndsAlone n st .slotEmpty [] s t) ∧
    ∀ u, s.slotUnit n slot = some u →
      ((s.unit u).state ≠ .done → Completes (exec (.collect n) s) fun t =>
        OnlyStation n s t ∧ t.st n = { s.st n with ctx := waitingCtx s n st 10000 }) ∧
      let x := s.unit u
      let code : Code := if x.completion = .complete then .ok else .noEdge
      let result := leBytes 4 x.a.toNat ++ leBytes 4 x.b.toNat ++ leBytes 4 x.c.toNat ++
        [BitVec.ofNat 8 u.1, BitVec.ofNat 8 x.arm.kind.code, BitVec.ofNat 8 x.completion.code]
      (x.state = .done → s.waitList = [] → Completes (exec (.collect n) s) fun t =>
        StepEnds n st code result s t ∧ OnlyStationEngineUnits n s t ∧ t.st n = { s.st n with ctx := t.ctx n } ∧
        t.unit u = MeasUnit.initial ∧ ∀ v, v ≠ u → t.unit v = s.unit v) ∧
      ∀ w rest st', x.state = .done → s.waitList = w :: rest → s.ctl.state = .active → (∀ v, (s.unit v).state ≠ .free) →
        w.station ≠ n → (s.ctx w.station).step = some st' → Completes (exec (.collect n) s) fun t =>
          StepEndsAmid n st code result s t ∧ t.waitList = rest ∧
          (t.unit u).binding = some (w.station, w.slot) ∧ (t.unit u).arm = w.arm ∧
          StepEndsAmid w.station st' .ok ([BitVec.ofNat 8 u.1, 0, 0, 0] ++ leBytes 4 (s.now - w.start).toNat) s t

/-- An edge that has reached a unit: it starts an ARMED unit of start EDGE_X, completes an INTERVAL or a WIDTH, is counted by
a FREQUENCY or an EDGES, and in every case the level it reaches has been observed (R123, R125, R127 to R130); a COLLECT that
waits for the unit it completes ends with the result and frees the unit (R139). -/
def Obligations.MeasuredEdgesStartStopAndCount : Prop :=
  ∀ (s : State) (u : UnitId) (e : EdgeEvent) (rest : List EdgeEvent), (s.unit u).inbox = e :: rest →
    let x := s.unit u
    let seen : MeasUnit := { x with
      inbox := rest, obsX := if x.arm.x = e.signal then e.high else x.obsX,
      obsY := if x.arm.y = e.signal then e.high else x.obsY }
    let changesX := x.arm.x = e.signal ∧ x.obsX ≠ e.high
    let changesY := x.arm.y = e.signal ∧ x.obsY ≠ e.high
    let matching (c : EdgeCode) := c = .both ∨ (c = .rising ∧ e.high = true) ∨ (c = .falling ∧ e.high = false)
    let gated := x.arm.gating = .none ∨ (x.arm.gating = .whileHigh ∧ x.obsY = true) ∨
      (x.arm.gating = .whileLow ∧ x.obsY = false)
    let becomes (y : MeasUnit) : Prop := Completes (exec (.measuredEdge u) s) fun t => t = s.setUnit u y
    let done (y : MeasUnit) : MeasUnit := { y with
      state := .done, window := none, gate := none, inbox := [], completion := .complete }
    (∀ n st slot, x.binding = some (n, slot) → Flying s n st (.collect slot) → s.waitList = [] →
      x.state = .running →
      (x.arm.kind = .interval ∧ changesY ∧ matching x.arm.yEdge) ∨ (x.arm.kind = .width ∧ changesX ∧ ¬matching x.arm.xEdge) →
      Completes (exec (.measuredEdge u) s) fun t =>
        StepEnds n st .ok
          (leBytes 4 x.startStamp.toNat ++ leBytes 4 e.stamp.toNat ++ leBytes 4 (e.stamp - x.startStamp).toNat ++
            [BitVec.ofNat 8 u.1, BitVec.ofNat 8 x.arm.kind.code, 0]) s t ∧
        OnlyStationEngineUnits n s t ∧ t.unit u = MeasUnit.initial ∧ ∀ v, v ≠ u → t.unit v = s.unit v) ∧
    (x.state = .armed → x.arm.start = .edgeX ∧ changesX ∧ matching x.arm.xEdge → becomes (seen.begin e.stamp)) ∧
    (x.state = .armed → ¬(x.arm.start = .edgeX ∧ changesX ∧ matching x.arm.xEdge) → becomes seen) ∧
    (x.state = .running → x.arm.kind = .interval → changesY ∧ matching x.arm.yEdge → s.collector u = none →
      becomes (done { seen with a := x.startStamp, b := e.stamp, c := e.stamp - x.startStamp })) ∧
    (x.state = .running → x.arm.kind = .interval → ¬(changesY ∧ matching x.arm.yEdge) → becomes seen) ∧
    (x.state = .running → x.arm.kind = .width → changesX ∧ ¬matching x.arm.xEdge → s.collector u = none →
      becomes (done { seen with a := x.startStamp, b := e.stamp, c := e.stamp - x.startStamp })) ∧
    (x.state = .running → x.arm.kind = .width → ¬(changesX ∧ ¬matching x.arm.xEdge) → becomes seen) ∧
    (x.state = .running → x.arm.kind = .frequency →
      becomes (if changesX ∧ e.high = true then { seen with c := x.c + 1 } else seen)) ∧
    (x.state = .running → x.arm.kind = .edges → changesX ∧ matching x.arm.xEdge ∧ gated →
      becomes { seen with a := if x.c = 0 then e.stamp else x.a, b := e.stamp, c := x.c + 1 }) ∧
    (x.state = .running → x.arm.kind = .edges → ¬(changesX ∧ matching x.arm.xEdge ∧ gated) → becomes seen)

/-- The window and the gate complete a measurement with the completion code and captures of its kind; a COLLECT that waits
for the unit then ends with its result (R126, R129, R131, R139). -/
def Obligations.WindowAndGateCompleteTheMeasurement : Prop :=
  ∀ (s : State) (u : UnitId),
    let x := s.unit u
    let becomes (i : Instr) (completion : Completion) (a b c : Word) : Prop := Completes (exec i s) fun t =>
      t = s.setUnit u { x with
        state := .done, window := none, gate := none, inbox := [], completion := completion, a := a, b := b, c := c }
    let window := x.window = some 0
    let gate := x.gate = some 0
    (s.collector u = none →
      (window → x.state = .armed → becomes (.windowExpiry u) .noStart 0 0 0) ∧
      (window → x.state = .running → x.arm.kind = .interval ∨ x.arm.kind = .width →
        becomes (.windowExpiry u) .noStop x.startStamp 0 0) ∧
      (window → x.state = .running → x.arm.kind = .edges → becomes (.windowExpiry u) .complete x.a x.b x.c) ∧
      (gate → x.state = .running →
        becomes (.gateEnd u) .complete x.startStamp (BitVec.ofNat 32 x.arm.gate) x.c)) ∧
    ∀ n st slot, x.binding = some (n, slot) → Flying s n st (.collect slot) → s.waitList = [] →
      let ends (i : Instr) (code : Code) (completion : Completion) (a b c : Word) : Prop := Completes (exec i s) fun t =>
        StepEnds n st code
          (leBytes 4 a.toNat ++ leBytes 4 b.toNat ++ leBytes 4 c.toNat ++
            [BitVec.ofNat 8 u.1, BitVec.ofNat 8 x.arm.kind.code, BitVec.ofNat 8 completion.code]) s t ∧
        OnlyStationEngineUnits n s t ∧ t.unit u = MeasUnit.initial ∧ ∀ v, v ≠ u → t.unit v = s.unit v
      (window → x.state = .armed → ends (.windowExpiry u) .noEdge .noStart 0 0 0) ∧
      (window → x.state = .running → x.arm.kind = .interval ∨ x.arm.kind = .width →
        ends (.windowExpiry u) .noEdge .noStop x.startStamp 0 0) ∧
      (window → x.state = .running → x.arm.kind = .edges → ends (.windowExpiry u) .ok .complete x.a x.b x.c) ∧
      (gate → x.state = .running →
        ends (.gateEnd u) .ok .complete x.startStamp (BitVec.ofNat 32 x.arm.gate) x.c)

/-- The deadlines of the shared blocks: a waiting ARM leaves the list with NO_UNIT, a waiting COLLECT abandons and frees
its unit with COLLECT_TIMEOUT, and a BARRIER leaves the arrived set with BARRIER_TIMEOUT and stays live; its round ends
when nobody is left in it, a round bound to a line is not ready any more, and the lines are judged (R135, R139, R149,
R152, R158). -/
def Obligations.DeadlinesOfTheSharedBlocks : Prop :=
  ∀ (s : State) (n : StationId) (st : InFlight), (s.ctx n).step = some st → (s.ctx n).deadline = some 0 →
    ((s.ctx n).state = .waitingUnit → Completes (exec (.noUnit n) s) fun t =>
      StepEnds n st .noUnit [] s t ∧ t.st n = { s.st n with ctx := t.ctx n } ∧ (∀ m, m ≠ n → t.st m = s.st m) ∧
      t = { s with
        stations := t.stations, engine := t.engine, waitList := s.waitList.filter fun w => w.station != n }) ∧
    (∀ slot u, Flying s n st (.collect slot) → s.slotUnit n slot = some u → s.waitList = [] →
      Completes (exec (.collectTimeout n) s) fun t =>
        StepEnds n st .collectTimeout [] s t ∧ OnlyStationEngineUnits n s t ∧ t.unit u = MeasUnit.initial ∧
        ∀ v, v ≠ u → t.unit v = s.unit v) ∧
    (∀ k, (s.ctx n).state = .atBarrier → (s.ctx n).cohort = some k → (s.cohort k).live.contains n = true →
      Completes (exec (.barrierTimeout n) s) fun t =>
        StepEnds n st .barrierTimeout [] s t ∧ (∀ m, m ≠ n → t.st m = s.st m) ∧
        (t.cohort k).arrived = ((s.cohort k).arrived.filter fun a => a.station != n) ∧
        (t.cohort k).live = (s.cohort k).live ∧ (t.cohort k).generation = (s.cohort k).generation ∧
        ((∃ a ∈ (s.cohort k).arrived, a.station = n) → ArrivalWithdrawn n k s t))

/-! ### Cohorts and sync lines -/

/-- A BARRIER is BAD_STEP without a cohort, with a line not in use, or with another line than its round's; otherwise it
arrives, binding the first arrival's round, and waits while a live station is missing, a round bound to a line not ready
and the lines judged; one that completes a round bound to a line makes it ready, and the line is judged (R146 to R149,
R158). -/
def Obligations.BarrierIsRefusedOrArrives : Prop :=
  ∀ (s : State) (n : StationId) (st : InFlight) (line : Option Line) (channel : Option ChannelId) (delay width : Nat),
    Handed s n st (.barrier line channel delay width) →
    ((s.ctx n).cohort = none → Completes (exec (.barrier n) s) fun t => StepEndsAlone n st .badStep [] s t) ∧
    ∀ k, (s.ctx n).cohort = some k →
      let x := s.cohort k
      let refused := (∃ l, line = some l ∧ s.ctl.useFlag l = false) ∨ (x.arrived ≠ [] ∧ x.binding ≠ line)
      (refused → Completes (exec (.barrier n) s) fun t => StepEndsAlone n st .badStep [] s t) ∧
      (¬refused → (∃ m ∈ x.live, m ≠ n ∧ ∀ a ∈ x.arrived, a.station ≠ m) →
        Completes (exec (.barrier n) s) fun t =>
          t.ctx n = { waitingCtx s n st 60000 with state := .atBarrier } ∧ (∀ m, m ≠ n → t.st m = s.st m) ∧
          t = { s with stations := t.stations, cohorts := t.cohorts, lineA := t.lineA, lineB := t.lineB } ∧
          (∀ j, j ≠ k → t.cohort j = s.cohort j) ∧ (t.cohort k).live = x.live ∧
          (t.cohort k).generation = x.generation ∧ (t.cohort k).binding = line ∧
          (t.cohort k).ready = (x.ready && line.isNone) ∧ (∀ l, LineJudged l s t) ∧
          (t.cohort k).arrived =
            x.arrived ++ [{ station := n, channel := channel, delay := delay, width := width }]) ∧
      ∀ l, line = some l → ¬refused → (∀ m, m ∈ x.live ↔ m = n ∨ ∃ a ∈ x.arrived, a.station = m) →
        Completes (exec (.barrier n) s) fun t =>
          t.ctx n = { waitingCtx s n st 60000 with state := .atBarrier } ∧ (∀ m, m ≠ n → t.st m = s.st m) ∧
          t = { s with stations := t.stations, cohorts := t.cohorts, lineA := t.lineA, lineB := t.lineB } ∧
          (∀ j, j ≠ k → t.cohort j = s.cohort j) ∧
          t.cohort k = { x with
            arrived := x.arrived ++ [{ station := n, channel := channel, delay := delay, width := width }],
            binding := some l, ready := true } ∧
          ∀ m, LineJudged m s t

/-- The BARRIER that completes a round of no line releases it at once: every arrival's step ends in this event, its units
ARMED with RELEASE start, and the generation rises (R100, R125, R148, R150). -/
def Obligations.CompleteRoundIsReleased : Prop :=
  ∀ (s : State) (n : StationId) (st : InFlight) (channel : Option ChannelId) (delay width : Nat) (k : CohortId),
    Handed s n st (.barrier none channel delay width) → (s.ctx n).cohort = some k → s.ctl.state = .active →
    ((s.cohort k).arrived = [] ∨ (s.cohort k).binding = none) →
    let a : Arrival := { station := n, channel := channel, delay := delay, width := width }
    Cohort.ArrivedOnce ((s.cohort k).arrived ++ [a]) →
    (∀ m, m ∈ (s.cohort k).live ↔ m ∈ ((s.cohort k).arrived ++ [a]).map Arrival.station) →
    Completes (exec (.barrier n) s) fun t => RoundReleased k ((s.cohort k).arrived ++ [a]) s t

/-- An accepted rise releases every ready round bound to the line and starts its hold; an accepted fall lets a line in PULL
whose release condition holds go OPEN; at the end of the hold the line pulls again and the condition is judged (R158,
R159, R160). -/
def Obligations.SyncLineEdgesAndHold : Prop :=
  ∀ (s : State) (l : Line),
    ((s.line l).riseDue = true → s.ctl.state = .active → Completes (exec (.syncRise l) s) fun t =>
      (s.readyRounds l = [] → t = s.setLine l { s.line l with riseDue := false }) ∧
      (s.readyRounds l ≠ [] → (t.line l).riseDue = false ∧
        ((s.line l).drive ≠ .off →
          (t.line l).drive = .hold ∧ (t.line l).hold = some 1250 ∧ (t.line l).pin = (s.line l).others) ∧
        ∀ k ∈ s.readyRounds l,
          t.cohort k = (s.cohort k).released) ∧
      ∀ k, s.readyRounds l = [k] → Cohort.ArrivedOnce (s.cohort k).arrived →
        RoundReleased k (s.cohort k).arrived s t) ∧
    ((s.line l).fallDue = true → Completes (exec (.syncFall l) s) fun t =>
      t.stations = s.stations ∧ t.cohorts = s.cohorts ∧ (t.line l).fallDue = false ∧
      ((s.line l).drive = .pull → s.releaseCondition l = true → (s.line l).filter.accepted = false →
        (t.line l).drive = .open ∧ (t.line l).pin = (s.line l).others) ∧
      ((s.line l).drive = .pull → s.releaseCondition l = false → (t.line l).drive = .pull) ∧
      ((s.line l).drive = .hold → (t.line l).drive = .hold)) ∧
    ((s.line l).drive = .hold → (s.line l).hold = some 0 → s.time.firstPeriod = false →
      Completes (exec (.syncHoldEnd l) s) fun t =>
        t.stations = s.stations ∧ t.cohorts = s.cohorts ∧ (t.line l).hold = none ∧
        (s.releaseCondition l = false → (t.line l).drive = .pull ∧ (t.line l).pin = false) ∧
        (s.releaseCondition l = true → (s.line l).filter.accepted = false →
          (t.line l).drive = .open ∧ (t.line l).pin = (s.line l).others) ∧
        (s.releaseCondition l = true → (s.line l).filter.accepted = true → (t.line l).drive = .pull))
end

