-- ==== Sys2Proof/Laws/State.lean ====
section
/-! SUPPORT. One lemma per accessor and update of State (Machine/Flags.lean): what an update writes and what it leaves. -/

namespace Sys2Proof.Laws

open Sys2Proof.Machine

variable (s : State) (n m : StationId) (u v : UnitId) (k j : CohortId) (l : Line)

/-- Reading one place of a vector after writing one place. -/
theorem get_set {α : Type} {k : Nat} (v : Vector α k) (i j : Fin k) (x : α) :
    (v.set i.1 x i.2).get j = if j = i then x else v.get j := by
  show (v.set i.1 x i.2)[j.1] = _
  rw [Vector.getElem_set]
  by_cases h : j = i
  · simp [h]
  · have : i.1 ≠ j.1 := fun e => h (Fin.ext e.symm)
    simp only [this, h, if_false]
    rfl

/-- Reading one place of a vector whose places have all been changed. -/
theorem get_map {α β : Type} {k : Nat} (f : α → β) (v : Vector α k) (i : Fin k) : (v.map f).get i = f (v.get i) := by
  show (v.map f)[i.1] = _
  rw [Vector.getElem_map]
  rfl

/-! ### Stations -/

@[simp] theorem st_setSt (x : Station) : (s.setSt n x).st m = if m = n then x else s.st m := get_set ..

@[simp] theorem ctx_setSt (x : Station) : (s.setSt n x).ctx m = if m = n then x.ctx else s.ctx m := by
  rw [State.ctx, st_setSt]; split <;> rfl

@[simp] theorem setSt_time (x : Station) : (s.setSt n x).time = s.time := rfl
@[simp] theorem setSt_ctl (x : Station) : (s.setSt n x).ctl = s.ctl := rfl
@[simp] theorem setSt_sweep (x : Station) : (s.setSt n x).sweep = s.sweep := rfl
@[simp] theorem setSt_notice (x : Station) : (s.setSt n x).notice = s.notice := rfl
@[simp] theorem setSt_units (x : Station) : (s.setSt n x).units = s.units := rfl
@[simp] theorem setSt_waitList (x : Station) : (s.setSt n x).waitList = s.waitList := rfl
@[simp] theorem setSt_cohorts (x : Station) : (s.setSt n x).cohorts = s.cohorts := rfl
@[simp] theorem setSt_lineA (x : Station) : (s.setSt n x).lineA = s.lineA := rfl
@[simp] theorem setSt_lineB (x : Station) : (s.setSt n x).lineB = s.lineB := rfl
@[simp] theorem setSt_engine (x : Station) : (s.setSt n x).engine = s.engine := rfl
@[simp] theorem setSt_sentLog (x : Station) : (s.setSt n x).sentLog = s.sentLog := rfl
@[simp] theorem setSt_choices (x : Station) : (s.setSt n x).choices = s.choices := rfl
@[simp] theorem setSt_pending (x : Station) : (s.setSt n x).pending = s.pending := rfl
@[simp] theorem setSt_now (x : Station) : (s.setSt n x).now = s.now := rfl
@[simp] theorem setSt_unit (x : Station) : (s.setSt n x).unit u = s.unit u := rfl
@[simp] theorem setSt_cohort (x : Station) : (s.setSt n x).cohort k = s.cohort k := rfl
@[simp] theorem setSt_line (x : Station) : (s.setSt n x).line l = s.line l := by cases l <;> rfl

/-! ### Units, cohorts, lines -/

@[simp] theorem unit_setUnit (x : MeasUnit) : (s.setUnit u x).unit v = if v = u then x else s.unit v := get_set ..

@[simp] theorem setUnit_time (x : MeasUnit) : (s.setUnit u x).time = s.time := rfl
@[simp] theorem setUnit_ctl (x : MeasUnit) : (s.setUnit u x).ctl = s.ctl := rfl
@[simp] theorem setUnit_sweep (x : MeasUnit) : (s.setUnit u x).sweep = s.sweep := rfl
@[simp] theorem setUnit_notice (x : MeasUnit) : (s.setUnit u x).notice = s.notice := rfl
@[simp] theorem setUnit_stations (x : MeasUnit) : (s.setUnit u x).stations = s.stations := rfl
@[simp] theorem setUnit_waitList (x : MeasUnit) : (s.setUnit u x).waitList = s.waitList := rfl
@[simp] theorem setUnit_cohorts (x : MeasUnit) : (s.setUnit u x).cohorts = s.cohorts := rfl
@[simp] theorem setUnit_lineA (x : MeasUnit) : (s.setUnit u x).lineA = s.lineA := rfl
@[simp] theorem setUnit_lineB (x : MeasUnit) : (s.setUnit u x).lineB = s.lineB := rfl
@[simp] theorem setUnit_engine (x : MeasUnit) : (s.setUnit u x).engine = s.engine := rfl
@[simp] theorem setUnit_sentLog (x : MeasUnit) : (s.setUnit u x).sentLog = s.sentLog := rfl
@[simp] theorem setUnit_choices (x : MeasUnit) : (s.setUnit u x).choices = s.choices := rfl
@[simp] theorem setUnit_pending (x : MeasUnit) : (s.setUnit u x).pending = s.pending := rfl
@[simp] theorem setUnit_now (x : MeasUnit) : (s.setUnit u x).now = s.now := rfl
@[simp] theorem setUnit_st (x : MeasUnit) : (s.setUnit u x).st n = s.st n := rfl

@[simp] theorem cohort_setCohort (x : Cohort) : (s.setCohort k x).cohort j = if j = k then x else s.cohort j := get_set ..

@[simp] theorem setCohort_time (x : Cohort) : (s.setCohort k x).time = s.time := rfl
@[simp] theorem setCohort_ctl (x : Cohort) : (s.setCohort k x).ctl = s.ctl := rfl
@[simp] theorem setCohort_sweep (x : Cohort) : (s.setCohort k x).sweep = s.sweep := rfl
@[simp] theorem setCohort_notice (x : Cohort) : (s.setCohort k x).notice = s.notice := rfl
@[simp] theorem setCohort_stations (x : Cohort) : (s.setCohort k x).stations = s.stations := rfl
@[simp] theorem setCohort_units (x : Cohort) : (s.setCohort k x).units = s.units := rfl
@[simp] theorem setCohort_waitList (x : Cohort) : (s.setCohort k x).waitList = s.waitList := rfl
@[simp] theorem setCohort_lineA (x : Cohort) : (s.setCohort k x).lineA = s.lineA := rfl
@[simp] theorem setCohort_lineB (x : Cohort) : (s.setCohort k x).lineB = s.lineB := rfl
@[simp] theorem setCohort_engine (x : Cohort) : (s.setCohort k x).engine = s.engine := rfl
@[simp] theorem setCohort_sentLog (x : Cohort) : (s.setCohort k x).sentLog = s.sentLog := rfl
@[simp] theorem setCohort_choices (x : Cohort) : (s.setCohort k x).choices = s.choices := rfl
@[simp] theorem setCohort_pending (x : Cohort) : (s.setCohort k x).pending = s.pending := rfl
@[simp] theorem setCohort_now (x : Cohort) : (s.setCohort k x).now = s.now := rfl
@[simp] theorem setCohort_st (x : Cohort) : (s.setCohort k x).st n = s.st n := rfl
@[simp] theorem setCohort_unit (x : Cohort) : (s.setCohort k x).unit u = s.unit u := rfl
@[simp] theorem setCohort_line (x : Cohort) : (s.setCohort k x).line l = s.line l := by cases l <;> rfl

@[simp] theorem line_setLine (h : Line) (x : SyncLine) : (s.setLine l x).line h = if h = l then x else s.line h := by
  cases l <;> cases h <;> rfl

@[simp] theorem setLine_time (x : SyncLine) : (s.setLine l x).time = s.time := by cases l <;> rfl
@[simp] theorem setLine_ctl (x : SyncLine) : (s.setLine l x).ctl = s.ctl := by cases l <;> rfl
@[simp] theorem setLine_sweep (x : SyncLine) : (s.setLine l x).sweep = s.sweep := by cases l <;> rfl
@[simp] theorem setLine_notice (x : SyncLine) : (s.setLine l x).notice = s.notice := by cases l <;> rfl
@[simp] theorem setLine_stations (x : SyncLine) : (s.setLine l x).stations = s.stations := by cases l <;> rfl
@[simp] theorem setLine_units (x : SyncLine) : (s.setLine l x).units = s.units := by cases l <;> rfl
@[simp] theorem setLine_waitList (x : SyncLine) : (s.setLine l x).waitList = s.waitList := by cases l <;> rfl
@[simp] theorem setLine_cohorts (x : SyncLine) : (s.setLine l x).cohorts = s.cohorts := by cases l <;> rfl
@[simp] theorem setLine_engine (x : SyncLine) : (s.setLine l x).engine = s.engine := by cases l <;> rfl
@[simp] theorem setLine_sentLog (x : SyncLine) : (s.setLine l x).sentLog = s.sentLog := by cases l <;> rfl
@[simp] theorem setLine_choices (x : SyncLine) : (s.setLine l x).choices = s.choices := by cases l <;> rfl
@[simp] theorem setLine_pending (x : SyncLine) : (s.setLine l x).pending = s.pending := by cases l <;> rfl
@[simp] theorem setLine_now (x : SyncLine) : (s.setLine l x).now = s.now := by cases l <;> rfl
@[simp] theorem setLine_st (x : SyncLine) : (s.setLine l x).st n = s.st n := by cases l <;> rfl
@[simp] theorem setLine_unit (x : SyncLine) : (s.setLine l x).unit u = s.unit u := by cases l <;> rfl
@[simp] theorem setLine_cohort (x : SyncLine) : (s.setLine l x).cohort k = s.cohort k := by cases l <;> rfl

/-! ### The parts of a station -/

@[simp] theorem setCtx_eq (x : Context) : s.setCtx n x = s.setSt n { s.st n with ctx := x } := rfl
@[simp] theorem setLink_eq (x : Link) : s.setLink n x = s.setSt n { s.st n with link := x } := rfl
@[simp] theorem setPower_eq (x : Power) : s.setPower n x = s.setSt n { s.st n with power := x } := rfl
@[simp] theorem putChan_eq (c : ChannelId) (x : Channel) :
    s.putChan n c x = s.setSt n { s.st n with chans := (s.st n).chans.set c.1 x c.2 } := rfl

@[simp] theorem get_set_chan (v : Vector Channel 4) (c d : ChannelId) (x : Channel) :
    (v.set c.1 x c.2).get d = if d = c then x else v.get d := get_set ..

@[simp] theorem chan_eq (c : ChannelId) : s.chan n c = (s.st n).chans.get c := rfl

/-- A context reads back as it was put. -/
theorem ctx_setCtx (x : Context) : (s.setCtx n x).ctx n = x := by simp

/-- Two states with the same stations show the same station. -/
theorem st_congr {s t : State} (h : s.stations = t.stations) (n : StationId) : s.st n = t.st n := by
  simp [State.st, h]

end Sys2Proof.Laws
end

