-- ==== Sys2Proof/Laws/Frame.lean ====
section
/-! SUPPORT. What the shared operations leave alone. `State.fixed` gathers the fields only the clock, Part Control, the sweep,
the link and the sender change; every operation of the stations and the shared blocks keeps it. -/

namespace Sys2Proof.Laws

open Sys2Proof.Machine

set_option linter.unusedTactic false
set_option linter.unreachableTactic false
set_option linter.unnecessarySeqFocus false

/-- A fold of steps that keep a view of the state keeps it. -/
theorem foldl_keeps {α β : Type} {f : State → α → State} (g : State → β) (h : ∀ s a, g (f s a) = g s) (l : List α)
    (s : State) : g (l.foldl f s) = g s := by
  induction l generalizing s with
  | nil => rfl
  | cons a l ih => rw [List.foldl_cons, ih, h]

/-- The fields that only the clock, Part Control, the sweep, the link and the sender change. -/
def fixed (s : State) : TimeBase × Control × Sweep × List Sent × Nat × List Instr :=
  (s.time, s.ctl, s.sweep, s.sentLog, s.choices, s.pending)

theorem time_of_fixed {s t : State} (h : fixed t = fixed s) : t.time = s.time := congrArg Prod.fst h
theorem ctl_of_fixed {s t : State} (h : fixed t = fixed s) : t.ctl = s.ctl := congrArg (fun p => p.2.1) h
theorem sweep_of_fixed {s t : State} (h : fixed t = fixed s) : t.sweep = s.sweep := congrArg (fun p => p.2.2.1) h
theorem sentLog_of_fixed {s t : State} (h : fixed t = fixed s) : t.sentLog = s.sentLog := congrArg (fun p => p.2.2.2.1) h
theorem choices_of_fixed {s t : State} (h : fixed t = fixed s) : t.choices = s.choices := congrArg (fun p => p.2.2.2.2.1) h
theorem pending_of_fixed {s t : State} (h : fixed t = fixed s) : t.pending = s.pending := congrArg (fun p => p.2.2.2.2.2) h

/-- Equal fixed fields from equal fields. -/
theorem fixed_of_eq {s t : State} (h1 : t.time = s.time) (h2 : t.ctl = s.ctl) (h3 : t.sweep = s.sweep)
    (h4 : t.sentLog = s.sentLog) (h5 : t.choices = s.choices) (h6 : t.pending = s.pending) : fixed t = fixed s := by
  simp only [fixed, h1, h2, h3, h4, h5, h6]

@[simp] theorem setSt_fixed (s : State) (n : StationId) (x : Station) : fixed (s.setSt n x) = fixed s := rfl
@[simp] theorem setUnit_fixed (s : State) (u : UnitId) (x : MeasUnit) : fixed (s.setUnit u x) = fixed s := rfl
@[simp] theorem setCohort_fixed (s : State) (k : CohortId) (x : Cohort) : fixed (s.setCohort k x) = fixed s := rfl
@[simp] theorem setLine_fixed (s : State) (l : Line) (x : SyncLine) : fixed (s.setLine l x) = fixed s := by cases l <;> rfl
@[simp] theorem units_fixed (s : State) (x : Vector MeasUnit 6) : fixed { s with units := x } = fixed s := rfl
@[simp] theorem waitList_fixed (s : State) (x : List WaitEntry) : fixed { s with waitList := x } = fixed s := rfl
@[simp] theorem engine_fixed (s : State) (x : Engine) : fixed { s with engine := x } = fixed s := rfl
@[simp] theorem notice_fixed (s : State) (x : Notice) : fixed { s with notice := x } = fixed s := rfl
@[simp] theorem engineNotice_fixed (s : State) (x : Engine) (y : Notice) :
    fixed { s with engine := x, notice := y } = fixed s := rfl
@[simp] theorem unitsWait_fixed (s : State) (x : Vector MeasUnit 6) (y : List WaitEntry) :
    fixed { s with units := x, waitList := y } = fixed s := rfl

@[simp] theorem take_time (r : Request) (s : State) : (take r s).time = s.time := by
  unfold take; simp
@[simp] theorem take_ctl (r : Request) (s : State) : (take r s).ctl = s.ctl := by
  unfold take; simp
@[simp] theorem take_sweep (r : Request) (s : State) : (take r s).sweep = s.sweep := by
  unfold take; simp
@[simp] theorem take_stations (r : Request) (s : State) : (take r s).stations = s.stations := by
  unfold take; simp
@[simp] theorem take_units (r : Request) (s : State) : (take r s).units = s.units := by
  unfold take; simp
@[simp] theorem take_waitList (r : Request) (s : State) : (take r s).waitList = s.waitList := by
  unfold take; simp
@[simp] theorem take_cohorts (r : Request) (s : State) : (take r s).cohorts = s.cohorts := by
  unfold take; simp
@[simp] theorem take_lineA (r : Request) (s : State) : (take r s).lineA = s.lineA := by
  unfold take; simp
@[simp] theorem take_lineB (r : Request) (s : State) : (take r s).lineB = s.lineB := by
  unfold take; simp
@[simp] theorem take_sentLog (r : Request) (s : State) : (take r s).sentLog = s.sentLog := by
  unfold take; simp
@[simp] theorem take_choices (r : Request) (s : State) : (take r s).choices = s.choices := by
  unfold take; simp
@[simp] theorem take_pending (r : Request) (s : State) : (take r s).pending = s.pending := by
  unfold take; simp
@[simp] theorem take_fixed (r : Request) (s : State) : fixed (take r s) = fixed s := by
  apply fixed_of_eq <;> simp

@[simp] theorem offer_time (r : Request) (s : State) : (offer r s).time = s.time := by
  unfold offer; dsimp only; (repeat' split) <;> simp
@[simp] theorem offer_ctl (r : Request) (s : State) : (offer r s).ctl = s.ctl := by
  unfold offer; dsimp only; (repeat' split) <;> simp
@[simp] theorem offer_sweep (r : Request) (s : State) : (offer r s).sweep = s.sweep := by
  unfold offer; dsimp only; (repeat' split) <;> simp
@[simp] theorem offer_stations (r : Request) (s : State) : (offer r s).stations = s.stations := by
  unfold offer; dsimp only; (repeat' split) <;> simp
@[simp] theorem offer_units (r : Request) (s : State) : (offer r s).units = s.units := by
  unfold offer; dsimp only; (repeat' split) <;> simp
@[simp] theorem offer_waitList (r : Request) (s : State) : (offer r s).waitList = s.waitList := by
  unfold offer; dsimp only; (repeat' split) <;> simp
@[simp] theorem offer_cohorts (r : Request) (s : State) : (offer r s).cohorts = s.cohorts := by
  unfold offer; dsimp only; (repeat' split) <;> simp
@[simp] theorem offer_lineA (r : Request) (s : State) : (offer r s).lineA = s.lineA := by
  unfold offer; dsimp only; (repeat' split) <;> simp
@[simp] theorem offer_lineB (r : Request) (s : State) : (offer r s).lineB = s.lineB := by
  unfold offer; dsimp only; (repeat' split) <;> simp
@[simp] theorem offer_sentLog (r : Request) (s : State) : (offer r s).sentLog = s.sentLog := by
  unfold offer; dsimp only; (repeat' split) <;> simp
@[simp] theorem offer_choices (r : Request) (s : State) : (offer r s).choices = s.choices := by
  unfold offer; dsimp only; (repeat' split) <;> simp
@[simp] theorem offer_pending (r : Request) (s : State) : (offer r s).pending = s.pending := by
  unfold offer; dsimp only; (repeat' split) <;> simp
@[simp] theorem offer_fixed (r : Request) (s : State) : fixed (offer r s) = fixed s := by
  apply fixed_of_eq <;> simp

@[simp] theorem refill_time (s : State) : (refill s).time = s.time := by
  unfold refill; dsimp only; (repeat' split) <;> simp
@[simp] theorem refill_ctl (s : State) : (refill s).ctl = s.ctl := by
  unfold refill; dsimp only; (repeat' split) <;> simp
@[simp] theorem refill_sweep (s : State) : (refill s).sweep = s.sweep := by
  unfold refill; dsimp only; (repeat' split) <;> simp
@[simp] theorem refill_stations (s : State) : (refill s).stations = s.stations := by
  unfold refill; dsimp only; (repeat' split) <;> simp
@[simp] theorem refill_units (s : State) : (refill s).units = s.units := by
  unfold refill; dsimp only; (repeat' split) <;> simp
@[simp] theorem refill_waitList (s : State) : (refill s).waitList = s.waitList := by
  unfold refill; dsimp only; (repeat' split) <;> simp
@[simp] theorem refill_cohorts (s : State) : (refill s).cohorts = s.cohorts := by
  unfold refill; dsimp only; (repeat' split) <;> simp
@[simp] theorem refill_lineA (s : State) : (refill s).lineA = s.lineA := by
  unfold refill; dsimp only; (repeat' split) <;> simp
@[simp] theorem refill_lineB (s : State) : (refill s).lineB = s.lineB := by
  unfold refill; dsimp only; (repeat' split) <;> simp
@[simp] theorem refill_sentLog (s : State) : (refill s).sentLog = s.sentLog := by
  unfold refill; dsimp only; (repeat' split) <;> simp
@[simp] theorem refill_choices (s : State) : (refill s).choices = s.choices := by
  unfold refill; dsimp only; (repeat' split) <;> simp
@[simp] theorem refill_pending (s : State) : (refill s).pending = s.pending := by
  unfold refill; dsimp only; (repeat' split) <;> simp
@[simp] theorem refill_fixed (s : State) : fixed (refill s) = fixed s := by
  apply fixed_of_eq <;> simp

@[simp] theorem refillAll_time (s : State) : (refillAll s).time = s.time := by
  unfold refillAll; exact foldl_keeps (fun s : State => s.time) (by intros; simp) _ _
@[simp] theorem refillAll_ctl (s : State) : (refillAll s).ctl = s.ctl := by
  unfold refillAll; exact foldl_keeps (fun s : State => s.ctl) (by intros; simp) _ _
@[simp] theorem refillAll_sweep (s : State) : (refillAll s).sweep = s.sweep := by
  unfold refillAll; exact foldl_keeps (fun s : State => s.sweep) (by intros; simp) _ _
@[simp] theorem refillAll_stations (s : State) : (refillAll s).stations = s.stations := by
  unfold refillAll; exact foldl_keeps (fun s : State => s.stations) (by intros; simp) _ _
@[simp] theorem refillAll_units (s : State) : (refillAll s).units = s.units := by
  unfold refillAll; exact foldl_keeps (fun s : State => s.units) (by intros; simp) _ _
@[simp] theorem refillAll_waitList (s : State) : (refillAll s).waitList = s.waitList := by
  unfold refillAll; exact foldl_keeps (fun s : State => s.waitList) (by intros; simp) _ _
@[simp] theorem refillAll_cohorts (s : State) : (refillAll s).cohorts = s.cohorts := by
  unfold refillAll; exact foldl_keeps (fun s : State => s.cohorts) (by intros; simp) _ _
@[simp] theorem refillAll_lineA (s : State) : (refillAll s).lineA = s.lineA := by
  unfold refillAll; exact foldl_keeps (fun s : State => s.lineA) (by intros; simp) _ _
@[simp] theorem refillAll_lineB (s : State) : (refillAll s).lineB = s.lineB := by
  unfold refillAll; exact foldl_keeps (fun s : State => s.lineB) (by intros; simp) _ _
@[simp] theorem refillAll_sentLog (s : State) : (refillAll s).sentLog = s.sentLog := by
  unfold refillAll; exact foldl_keeps (fun s : State => s.sentLog) (by intros; simp) _ _
@[simp] theorem refillAll_choices (s : State) : (refillAll s).choices = s.choices := by
  unfold refillAll; exact foldl_keeps (fun s : State => s.choices) (by intros; simp) _ _
@[simp] theorem refillAll_pending (s : State) : (refillAll s).pending = s.pending := by
  unfold refillAll; exact foldl_keeps (fun s : State => s.pending) (by intros; simp) _ _
@[simp] theorem refillAll_fixed (s : State) : fixed (refillAll s) = fixed s := by
  apply fixed_of_eq <;> simp

@[simp] theorem queuePartHalf_time (n : StationId) (s : State) : (queuePartHalf n s).time = s.time := by
  unfold queuePartHalf; dsimp only; (repeat' split) <;> simp
@[simp] theorem queuePartHalf_ctl (n : StationId) (s : State) : (queuePartHalf n s).ctl = s.ctl := by
  unfold queuePartHalf; dsimp only; (repeat' split) <;> simp
@[simp] theorem queuePartHalf_sweep (n : StationId) (s : State) : (queuePartHalf n s).sweep = s.sweep := by
  unfold queuePartHalf; dsimp only; (repeat' split) <;> simp
@[simp] theorem queuePartHalf_stations (n : StationId) (s : State) : (queuePartHalf n s).stations = s.stations := by
  unfold queuePartHalf; dsimp only; (repeat' split) <;> simp
@[simp] theorem queuePartHalf_units (n : StationId) (s : State) : (queuePartHalf n s).units = s.units := by
  unfold queuePartHalf; dsimp only; (repeat' split) <;> simp
@[simp] theorem queuePartHalf_waitList (n : StationId) (s : State) : (queuePartHalf n s).waitList = s.waitList := by
  unfold queuePartHalf; dsimp only; (repeat' split) <;> simp
@[simp] theorem queuePartHalf_cohorts (n : StationId) (s : State) : (queuePartHalf n s).cohorts = s.cohorts := by
  unfold queuePartHalf; dsimp only; (repeat' split) <;> simp
@[simp] theorem queuePartHalf_lineA (n : StationId) (s : State) : (queuePartHalf n s).lineA = s.lineA := by
  unfold queuePartHalf; dsimp only; (repeat' split) <;> simp
@[simp] theorem queuePartHalf_lineB (n : StationId) (s : State) : (queuePartHalf n s).lineB = s.lineB := by
  unfold queuePartHalf; dsimp only; (repeat' split) <;> simp
@[simp] theorem queuePartHalf_sentLog (n : StationId) (s : State) : (queuePartHalf n s).sentLog = s.sentLog := by
  unfold queuePartHalf; dsimp only; (repeat' split) <;> simp
@[simp] theorem queuePartHalf_choices (n : StationId) (s : State) : (queuePartHalf n s).choices = s.choices := by
  unfold queuePartHalf; dsimp only; (repeat' split) <;> simp
@[simp] theorem queuePartHalf_pending (n : StationId) (s : State) : (queuePartHalf n s).pending = s.pending := by
  unfold queuePartHalf; dsimp only; (repeat' split) <;> simp
@[simp] theorem queuePartHalf_fixed (n : StationId) (s : State) : fixed (queuePartHalf n s) = fixed s := by
  apply fixed_of_eq <;> simp

@[simp] theorem offerHeld_time (n : StationId) (s : State) : (offerHeld n s).time = s.time := by
  unfold offerHeld; dsimp only; (repeat' split) <;> simp
@[simp] theorem offerHeld_ctl (n : StationId) (s : State) : (offerHeld n s).ctl = s.ctl := by
  unfold offerHeld; dsimp only; (repeat' split) <;> simp
@[simp] theorem offerHeld_sweep (n : StationId) (s : State) : (offerHeld n s).sweep = s.sweep := by
  unfold offerHeld; dsimp only; (repeat' split) <;> simp
@[simp] theorem offerHeld_stations (n : StationId) (s : State) : (offerHeld n s).stations = s.stations := by
  unfold offerHeld; dsimp only; (repeat' split) <;> simp
@[simp] theorem offerHeld_units (n : StationId) (s : State) : (offerHeld n s).units = s.units := by
  unfold offerHeld; dsimp only; (repeat' split) <;> simp
@[simp] theorem offerHeld_waitList (n : StationId) (s : State) : (offerHeld n s).waitList = s.waitList := by
  unfold offerHeld; dsimp only; (repeat' split) <;> simp
@[simp] theorem offerHeld_cohorts (n : StationId) (s : State) : (offerHeld n s).cohorts = s.cohorts := by
  unfold offerHeld; dsimp only; (repeat' split) <;> simp
@[simp] theorem offerHeld_lineA (n : StationId) (s : State) : (offerHeld n s).lineA = s.lineA := by
  unfold offerHeld; dsimp only; (repeat' split) <;> simp
@[simp] theorem offerHeld_lineB (n : StationId) (s : State) : (offerHeld n s).lineB = s.lineB := by
  unfold offerHeld; dsimp only; (repeat' split) <;> simp
@[simp] theorem offerHeld_sentLog (n : StationId) (s : State) : (offerHeld n s).sentLog = s.sentLog := by
  unfold offerHeld; dsimp only; (repeat' split) <;> simp
@[simp] theorem offerHeld_choices (n : StationId) (s : State) : (offerHeld n s).choices = s.choices := by
  unfold offerHeld; dsimp only; (repeat' split) <;> simp
@[simp] theorem offerHeld_pending (n : StationId) (s : State) : (offerHeld n s).pending = s.pending := by
  unfold offerHeld; dsimp only; (repeat' split) <;> simp
@[simp] theorem offerHeld_fixed (n : StationId) (s : State) : fixed (offerHeld n s) = fixed s := by
  apply fixed_of_eq <;> simp

@[simp] theorem noticeKick_time (s : State) : (noticeKick s).time = s.time := by
  unfold noticeKick; dsimp only; (repeat' split) <;> simp
@[simp] theorem noticeKick_ctl (s : State) : (noticeKick s).ctl = s.ctl := by
  unfold noticeKick; dsimp only; (repeat' split) <;> simp
@[simp] theorem noticeKick_sweep (s : State) : (noticeKick s).sweep = s.sweep := by
  unfold noticeKick; dsimp only; (repeat' split) <;> simp
@[simp] theorem noticeKick_stations (s : State) : (noticeKick s).stations = s.stations := by
  unfold noticeKick; dsimp only; (repeat' split) <;> simp
@[simp] theorem noticeKick_units (s : State) : (noticeKick s).units = s.units := by
  unfold noticeKick; dsimp only; (repeat' split) <;> simp
@[simp] theorem noticeKick_waitList (s : State) : (noticeKick s).waitList = s.waitList := by
  unfold noticeKick; dsimp only; (repeat' split) <;> simp
@[simp] theorem noticeKick_cohorts (s : State) : (noticeKick s).cohorts = s.cohorts := by
  unfold noticeKick; dsimp only; (repeat' split) <;> simp
@[simp] theorem noticeKick_lineA (s : State) : (noticeKick s).lineA = s.lineA := by
  unfold noticeKick; dsimp only; (repeat' split) <;> simp
@[simp] theorem noticeKick_lineB (s : State) : (noticeKick s).lineB = s.lineB := by
  unfold noticeKick; dsimp only; (repeat' split) <;> simp
@[simp] theorem noticeKick_sentLog (s : State) : (noticeKick s).sentLog = s.sentLog := by
  unfold noticeKick; dsimp only; (repeat' split) <;> simp
@[simp] theorem noticeKick_choices (s : State) : (noticeKick s).choices = s.choices := by
  unfold noticeKick; dsimp only; (repeat' split) <;> simp
@[simp] theorem noticeKick_pending (s : State) : (noticeKick s).pending = s.pending := by
  unfold noticeKick; dsimp only; (repeat' split) <;> simp
@[simp] theorem noticeKick_fixed (s : State) : fixed (noticeKick s) = fixed s := by
  apply fixed_of_eq <;> simp

@[simp] theorem setAttention_time (i : Nat) (s : State) : (setAttention i s).time = s.time := by
  unfold setAttention; dsimp only; (repeat' split) <;> simp
@[simp] theorem setAttention_ctl (i : Nat) (s : State) : (setAttention i s).ctl = s.ctl := by
  unfold setAttention; dsimp only; (repeat' split) <;> simp
@[simp] theorem setAttention_sweep (i : Nat) (s : State) : (setAttention i s).sweep = s.sweep := by
  unfold setAttention; dsimp only; (repeat' split) <;> simp
@[simp] theorem setAttention_stations (i : Nat) (s : State) : (setAttention i s).stations = s.stations := by
  unfold setAttention; dsimp only; (repeat' split) <;> simp
@[simp] theorem setAttention_units (i : Nat) (s : State) : (setAttention i s).units = s.units := by
  unfold setAttention; dsimp only; (repeat' split) <;> simp
@[simp] theorem setAttention_waitList (i : Nat) (s : State) : (setAttention i s).waitList = s.waitList := by
  unfold setAttention; dsimp only; (repeat' split) <;> simp
@[simp] theorem setAttention_cohorts (i : Nat) (s : State) : (setAttention i s).cohorts = s.cohorts := by
  unfold setAttention; dsimp only; (repeat' split) <;> simp
@[simp] theorem setAttention_lineA (i : Nat) (s : State) : (setAttention i s).lineA = s.lineA := by
  unfold setAttention; dsimp only; (repeat' split) <;> simp
@[simp] theorem setAttention_lineB (i : Nat) (s : State) : (setAttention i s).lineB = s.lineB := by
  unfold setAttention; dsimp only; (repeat' split) <;> simp
@[simp] theorem setAttention_engine (i : Nat) (s : State) : (setAttention i s).engine = s.engine := by
  unfold setAttention; dsimp only; (repeat' split) <;> simp
@[simp] theorem setAttention_sentLog (i : Nat) (s : State) : (setAttention i s).sentLog = s.sentLog := by
  unfold setAttention; dsimp only; (repeat' split) <;> simp
@[simp] theorem setAttention_choices (i : Nat) (s : State) : (setAttention i s).choices = s.choices := by
  unfold setAttention; dsimp only; (repeat' split) <;> simp
@[simp] theorem setAttention_pending (i : Nat) (s : State) : (setAttention i s).pending = s.pending := by
  unfold setAttention; dsimp only; (repeat' split) <;> simp
@[simp] theorem setAttention_fixed (i : Nat) (s : State) : fixed (setAttention i s) = fixed s := by
  apply fixed_of_eq <;> simp
@[simp] theorem clearAttention_fixed (w : Word) (be : BitVec 4) (s : State) : fixed (clearAttention w be s) = fixed s := by
  unfold clearAttention; simp
@[simp] theorem writeMask_fixed (w : Word) (be : BitVec 4) (s : State) : fixed (writeMask w be s) = fixed s := by
  unfold writeMask; simp

@[simp] theorem stationOffer_time (n : StationId) (b : Backlog) (s : State) : (stationOffer n b s).time = s.time := by
  unfold stationOffer; dsimp only; (repeat' split) <;> simp
@[simp] theorem stationOffer_ctl (n : StationId) (b : Backlog) (s : State) : (stationOffer n b s).ctl = s.ctl := by
  unfold stationOffer; dsimp only; (repeat' split) <;> simp
@[simp] theorem stationOffer_sweep (n : StationId) (b : Backlog) (s : State) : (stationOffer n b s).sweep = s.sweep := by
  unfold stationOffer; dsimp only; (repeat' split) <;> simp
@[simp] theorem stationOffer_units (n : StationId) (b : Backlog) (s : State) : (stationOffer n b s).units = s.units := by
  unfold stationOffer; dsimp only; (repeat' split) <;> simp
@[simp] theorem stationOffer_waitList (n : StationId) (b : Backlog) (s : State) : (stationOffer n b s).waitList = s.waitList := by
  unfold stationOffer; dsimp only; (repeat' split) <;> simp
@[simp] theorem stationOffer_cohorts (n : StationId) (b : Backlog) (s : State) : (stationOffer n b s).cohorts = s.cohorts := by
  unfold stationOffer; dsimp only; (repeat' split) <;> simp
@[simp] theorem stationOffer_lineA (n : StationId) (b : Backlog) (s : State) : (stationOffer n b s).lineA = s.lineA := by
  unfold stationOffer; dsimp only; (repeat' split) <;> simp
@[simp] theorem stationOffer_lineB (n : StationId) (b : Backlog) (s : State) : (stationOffer n b s).lineB = s.lineB := by
  unfold stationOffer; dsimp only; (repeat' split) <;> simp
@[simp] theorem stationOffer_sentLog (n : StationId) (b : Backlog) (s : State) : (stationOffer n b s).sentLog = s.sentLog := by
  unfold stationOffer; dsimp only; (repeat' split) <;> simp
@[simp] theorem stationOffer_choices (n : StationId) (b : Backlog) (s : State) : (stationOffer n b s).choices = s.choices := by
  unfold stationOffer; dsimp only; (repeat' split) <;> simp
@[simp] theorem stationOffer_pending (n : StationId) (b : Backlog) (s : State) : (stationOffer n b s).pending = s.pending := by
  unfold stationOffer; dsimp only; (repeat' split) <;> simp
@[simp] theorem stationOffer_fixed (n : StationId) (b : Backlog) (s : State) : fixed (stationOffer n b s) = fixed s := by
  apply fixed_of_eq <;> simp

@[simp] theorem endStep_time (n : StationId) (code : Code) (result : List Byte) (s : State) : (endStep n code result s).time = s.time := by
  unfold endStep; dsimp only; (repeat' split) <;> simp
@[simp] theorem endStep_ctl (n : StationId) (code : Code) (result : List Byte) (s : State) : (endStep n code result s).ctl = s.ctl := by
  unfold endStep; dsimp only; (repeat' split) <;> simp
@[simp] theorem endStep_sweep (n : StationId) (code : Code) (result : List Byte) (s : State) : (endStep n code result s).sweep = s.sweep := by
  unfold endStep; dsimp only; (repeat' split) <;> simp
@[simp] theorem endStep_units (n : StationId) (code : Code) (result : List Byte) (s : State) : (endStep n code result s).units = s.units := by
  unfold endStep; dsimp only; (repeat' split) <;> simp
@[simp] theorem endStep_waitList (n : StationId) (code : Code) (result : List Byte) (s : State) : (endStep n code result s).waitList = s.waitList := by
  unfold endStep; dsimp only; (repeat' split) <;> simp
@[simp] theorem endStep_cohorts (n : StationId) (code : Code) (result : List Byte) (s : State) : (endStep n code result s).cohorts = s.cohorts := by
  unfold endStep; dsimp only; (repeat' split) <;> simp
@[simp] theorem endStep_lineA (n : StationId) (code : Code) (result : List Byte) (s : State) : (endStep n code result s).lineA = s.lineA := by
  unfold endStep; dsimp only; (repeat' split) <;> simp
@[simp] theorem endStep_lineB (n : StationId) (code : Code) (result : List Byte) (s : State) : (endStep n code result s).lineB = s.lineB := by
  unfold endStep; dsimp only; (repeat' split) <;> simp
@[simp] theorem endStep_sentLog (n : StationId) (code : Code) (result : List Byte) (s : State) : (endStep n code result s).sentLog = s.sentLog := by
  unfold endStep; dsimp only; (repeat' split) <;> simp
@[simp] theorem endStep_choices (n : StationId) (code : Code) (result : List Byte) (s : State) : (endStep n code result s).choices = s.choices := by
  unfold endStep; dsimp only; (repeat' split) <;> simp
@[simp] theorem endStep_pending (n : StationId) (code : Code) (result : List Byte) (s : State) : (endStep n code result s).pending = s.pending := by
  unfold endStep; dsimp only; (repeat' split) <;> simp
@[simp] theorem endStep_fixed (n : StationId) (code : Code) (result : List Byte) (s : State) : fixed (endStep n code result s) = fixed s := by
  apply fixed_of_eq <;> simp

@[simp] theorem markTaken_time (n : StationId) (st : InFlight) (s : State) : (markTaken n st s).time = s.time := by
  unfold markTaken; simp
@[simp] theorem markTaken_ctl (n : StationId) (st : InFlight) (s : State) : (markTaken n st s).ctl = s.ctl := by
  unfold markTaken; simp
@[simp] theorem markTaken_sweep (n : StationId) (st : InFlight) (s : State) : (markTaken n st s).sweep = s.sweep := by
  unfold markTaken; simp
@[simp] theorem markTaken_notice (n : StationId) (st : InFlight) (s : State) : (markTaken n st s).notice = s.notice := by
  unfold markTaken; simp
@[simp] theorem markTaken_units (n : StationId) (st : InFlight) (s : State) : (markTaken n st s).units = s.units := by
  unfold markTaken; simp
@[simp] theorem markTaken_waitList (n : StationId) (st : InFlight) (s : State) : (markTaken n st s).waitList = s.waitList := by
  unfold markTaken; simp
@[simp] theorem markTaken_cohorts (n : StationId) (st : InFlight) (s : State) : (markTaken n st s).cohorts = s.cohorts := by
  unfold markTaken; simp
@[simp] theorem markTaken_lineA (n : StationId) (st : InFlight) (s : State) : (markTaken n st s).lineA = s.lineA := by
  unfold markTaken; simp
@[simp] theorem markTaken_lineB (n : StationId) (st : InFlight) (s : State) : (markTaken n st s).lineB = s.lineB := by
  unfold markTaken; simp
@[simp] theorem markTaken_engine (n : StationId) (st : InFlight) (s : State) : (markTaken n st s).engine = s.engine := by
  unfold markTaken; simp
@[simp] theorem markTaken_sentLog (n : StationId) (st : InFlight) (s : State) : (markTaken n st s).sentLog = s.sentLog := by
  unfold markTaken; simp
@[simp] theorem markTaken_choices (n : StationId) (st : InFlight) (s : State) : (markTaken n st s).choices = s.choices := by
  unfold markTaken; simp
@[simp] theorem markTaken_pending (n : StationId) (st : InFlight) (s : State) : (markTaken n st s).pending = s.pending := by
  unfold markTaken; simp
@[simp] theorem markTaken_fixed (n : StationId) (st : InFlight) (s : State) : fixed (markTaken n st s) = fixed s := by
  apply fixed_of_eq <;> simp

@[simp] theorem markWaiting_time (n : StationId) (st : InFlight) (s : State) : (markWaiting n st s).time = s.time := by
  unfold markWaiting; simp
@[simp] theorem markWaiting_ctl (n : StationId) (st : InFlight) (s : State) : (markWaiting n st s).ctl = s.ctl := by
  unfold markWaiting; simp
@[simp] theorem markWaiting_sweep (n : StationId) (st : InFlight) (s : State) : (markWaiting n st s).sweep = s.sweep := by
  unfold markWaiting; simp
@[simp] theorem markWaiting_notice (n : StationId) (st : InFlight) (s : State) : (markWaiting n st s).notice = s.notice := by
  unfold markWaiting; simp
@[simp] theorem markWaiting_units (n : StationId) (st : InFlight) (s : State) : (markWaiting n st s).units = s.units := by
  unfold markWaiting; simp
@[simp] theorem markWaiting_waitList (n : StationId) (st : InFlight) (s : State) : (markWaiting n st s).waitList = s.waitList := by
  unfold markWaiting; simp
@[simp] theorem markWaiting_cohorts (n : StationId) (st : InFlight) (s : State) : (markWaiting n st s).cohorts = s.cohorts := by
  unfold markWaiting; simp
@[simp] theorem markWaiting_lineA (n : StationId) (st : InFlight) (s : State) : (markWaiting n st s).lineA = s.lineA := by
  unfold markWaiting; simp
@[simp] theorem markWaiting_lineB (n : StationId) (st : InFlight) (s : State) : (markWaiting n st s).lineB = s.lineB := by
  unfold markWaiting; simp
@[simp] theorem markWaiting_engine (n : StationId) (st : InFlight) (s : State) : (markWaiting n st s).engine = s.engine := by
  unfold markWaiting; simp
@[simp] theorem markWaiting_sentLog (n : StationId) (st : InFlight) (s : State) : (markWaiting n st s).sentLog = s.sentLog := by
  unfold markWaiting; simp
@[simp] theorem markWaiting_choices (n : StationId) (st : InFlight) (s : State) : (markWaiting n st s).choices = s.choices := by
  unfold markWaiting; simp
@[simp] theorem markWaiting_pending (n : StationId) (st : InFlight) (s : State) : (markWaiting n st s).pending = s.pending := by
  unfold markWaiting; simp
@[simp] theorem markWaiting_fixed (n : StationId) (st : InFlight) (s : State) : fixed (markWaiting n st s) = fixed s := by
  apply fixed_of_eq <;> simp

@[simp] theorem emitEdge_time (n : StationId) (sig : Signal) (high : Bool) (s : State) : (emitEdge n sig high s).time = s.time := by
  unfold emitEdge; simp
@[simp] theorem emitEdge_ctl (n : StationId) (sig : Signal) (high : Bool) (s : State) : (emitEdge n sig high s).ctl = s.ctl := by
  unfold emitEdge; simp
@[simp] theorem emitEdge_sweep (n : StationId) (sig : Signal) (high : Bool) (s : State) : (emitEdge n sig high s).sweep = s.sweep := by
  unfold emitEdge; simp
@[simp] theorem emitEdge_notice (n : StationId) (sig : Signal) (high : Bool) (s : State) : (emitEdge n sig high s).notice = s.notice := by
  unfold emitEdge; simp
@[simp] theorem emitEdge_stations (n : StationId) (sig : Signal) (high : Bool) (s : State) : (emitEdge n sig high s).stations = s.stations := by
  unfold emitEdge; simp
@[simp] theorem emitEdge_waitList (n : StationId) (sig : Signal) (high : Bool) (s : State) : (emitEdge n sig high s).waitList = s.waitList := by
  unfold emitEdge; simp
@[simp] theorem emitEdge_cohorts (n : StationId) (sig : Signal) (high : Bool) (s : State) : (emitEdge n sig high s).cohorts = s.cohorts := by
  unfold emitEdge; simp
@[simp] theorem emitEdge_lineA (n : StationId) (sig : Signal) (high : Bool) (s : State) : (emitEdge n sig high s).lineA = s.lineA := by
  unfold emitEdge; simp
@[simp] theorem emitEdge_lineB (n : StationId) (sig : Signal) (high : Bool) (s : State) : (emitEdge n sig high s).lineB = s.lineB := by
  unfold emitEdge; simp
@[simp] theorem emitEdge_engine (n : StationId) (sig : Signal) (high : Bool) (s : State) : (emitEdge n sig high s).engine = s.engine := by
  unfold emitEdge; simp
@[simp] theorem emitEdge_sentLog (n : StationId) (sig : Signal) (high : Bool) (s : State) : (emitEdge n sig high s).sentLog = s.sentLog := by
  unfold emitEdge; simp
@[simp] theorem emitEdge_choices (n : StationId) (sig : Signal) (high : Bool) (s : State) : (emitEdge n sig high s).choices = s.choices := by
  unfold emitEdge; simp
@[simp] theorem emitEdge_pending (n : StationId) (sig : Signal) (high : Bool) (s : State) : (emitEdge n sig high s).pending = s.pending := by
  unfold emitEdge; simp
@[simp] theorem emitEdge_fixed (n : StationId) (sig : Signal) (high : Bool) (s : State) : fixed (emitEdge n sig high s) = fixed s := by
  apply fixed_of_eq <;> simp

@[simp] theorem setChan_time (n : StationId) (c : ChannelId) (x : Channel) (s : State) : (setChan n c x s).time = s.time := by
  unfold setChan; dsimp only; (repeat' split) <;> simp
@[simp] theorem setChan_ctl (n : StationId) (c : ChannelId) (x : Channel) (s : State) : (setChan n c x s).ctl = s.ctl := by
  unfold setChan; dsimp only; (repeat' split) <;> simp
@[simp] theorem setChan_sweep (n : StationId) (c : ChannelId) (x : Channel) (s : State) : (setChan n c x s).sweep = s.sweep := by
  unfold setChan; dsimp only; (repeat' split) <;> simp
@[simp] theorem setChan_notice (n : StationId) (c : ChannelId) (x : Channel) (s : State) : (setChan n c x s).notice = s.notice := by
  unfold setChan; dsimp only; (repeat' split) <;> simp
@[simp] theorem setChan_waitList (n : StationId) (c : ChannelId) (x : Channel) (s : State) : (setChan n c x s).waitList = s.waitList := by
  unfold setChan; dsimp only; (repeat' split) <;> simp
@[simp] theorem setChan_cohorts (n : StationId) (c : ChannelId) (x : Channel) (s : State) : (setChan n c x s).cohorts = s.cohorts := by
  unfold setChan; dsimp only; (repeat' split) <;> simp
@[simp] theorem setChan_lineA (n : StationId) (c : ChannelId) (x : Channel) (s : State) : (setChan n c x s).lineA = s.lineA := by
  unfold setChan; dsimp only; (repeat' split) <;> simp
@[simp] theorem setChan_lineB (n : StationId) (c : ChannelId) (x : Channel) (s : State) : (setChan n c x s).lineB = s.lineB := by
  unfold setChan; dsimp only; (repeat' split) <;> simp
@[simp] theorem setChan_engine (n : StationId) (c : ChannelId) (x : Channel) (s : State) : (setChan n c x s).engine = s.engine := by
  unfold setChan; dsimp only; (repeat' split) <;> simp
@[simp] theorem setChan_sentLog (n : StationId) (c : ChannelId) (x : Channel) (s : State) : (setChan n c x s).sentLog = s.sentLog := by
  unfold setChan; dsimp only; (repeat' split) <;> simp
@[simp] theorem setChan_choices (n : StationId) (c : ChannelId) (x : Channel) (s : State) : (setChan n c x s).choices = s.choices := by
  unfold setChan; dsimp only; (repeat' split) <;> simp
@[simp] theorem setChan_pending (n : StationId) (c : ChannelId) (x : Channel) (s : State) : (setChan n c x s).pending = s.pending := by
  unfold setChan; dsimp only; (repeat' split) <;> simp
@[simp] theorem setChan_fixed (n : StationId) (c : ChannelId) (x : Channel) (s : State) : fixed (setChan n c x s) = fixed s := by
  apply fixed_of_eq <;> simp

@[simp] theorem liftChan_time (n : StationId) (c : ChannelId) (s : State) : (liftChan n c s).time = s.time := by
  unfold liftChan; simp
@[simp] theorem liftChan_ctl (n : StationId) (c : ChannelId) (s : State) : (liftChan n c s).ctl = s.ctl := by
  unfold liftChan; simp
@[simp] theorem liftChan_sweep (n : StationId) (c : ChannelId) (s : State) : (liftChan n c s).sweep = s.sweep := by
  unfold liftChan; simp
@[simp] theorem liftChan_notice (n : StationId) (c : ChannelId) (s : State) : (liftChan n c s).notice = s.notice := by
  unfold liftChan; simp
@[simp] theorem liftChan_waitList (n : StationId) (c : ChannelId) (s : State) : (liftChan n c s).waitList = s.waitList := by
  unfold liftChan; simp
@[simp] theorem liftChan_cohorts (n : StationId) (c : ChannelId) (s : State) : (liftChan n c s).cohorts = s.cohorts := by
  unfold liftChan; simp
@[simp] theorem liftChan_lineA (n : StationId) (c : ChannelId) (s : State) : (liftChan n c s).lineA = s.lineA := by
  unfold liftChan; simp
@[simp] theorem liftChan_lineB (n : StationId) (c : ChannelId) (s : State) : (liftChan n c s).lineB = s.lineB := by
  unfold liftChan; simp
@[simp] theorem liftChan_engine (n : StationId) (c : ChannelId) (s : State) : (liftChan n c s).engine = s.engine := by
  unfold liftChan; simp
@[simp] theorem liftChan_sentLog (n : StationId) (c : ChannelId) (s : State) : (liftChan n c s).sentLog = s.sentLog := by
  unfold liftChan; simp
@[simp] theorem liftChan_choices (n : StationId) (c : ChannelId) (s : State) : (liftChan n c s).choices = s.choices := by
  unfold liftChan; simp
@[simp] theorem liftChan_pending (n : StationId) (c : ChannelId) (s : State) : (liftChan n c s).pending = s.pending := by
  unfold liftChan; simp
@[simp] theorem liftChan_fixed (n : StationId) (c : ChannelId) (s : State) : fixed (liftChan n c s) = fixed s := by
  apply fixed_of_eq <;> simp

@[simp] theorem liftAll_time (n : StationId) (s : State) : (liftAll n s).time = s.time := by
  unfold liftAll; exact foldl_keeps (fun s : State => s.time) (by intros; simp) _ _
@[simp] theorem liftAll_ctl (n : StationId) (s : State) : (liftAll n s).ctl = s.ctl := by
  unfold liftAll; exact foldl_keeps (fun s : State => s.ctl) (by intros; simp) _ _
@[simp] theorem liftAll_sweep (n : StationId) (s : State) : (liftAll n s).sweep = s.sweep := by
  unfold liftAll; exact foldl_keeps (fun s : State => s.sweep) (by intros; simp) _ _
@[simp] theorem liftAll_notice (n : StationId) (s : State) : (liftAll n s).notice = s.notice := by
  unfold liftAll; exact foldl_keeps (fun s : State => s.notice) (by intros; simp) _ _
@[simp] theorem liftAll_waitList (n : StationId) (s : State) : (liftAll n s).waitList = s.waitList := by
  unfold liftAll; exact foldl_keeps (fun s : State => s.waitList) (by intros; simp) _ _
@[simp] theorem liftAll_cohorts (n : StationId) (s : State) : (liftAll n s).cohorts = s.cohorts := by
  unfold liftAll; exact foldl_keeps (fun s : State => s.cohorts) (by intros; simp) _ _
@[simp] theorem liftAll_lineA (n : StationId) (s : State) : (liftAll n s).lineA = s.lineA := by
  unfold liftAll; exact foldl_keeps (fun s : State => s.lineA) (by intros; simp) _ _
@[simp] theorem liftAll_lineB (n : StationId) (s : State) : (liftAll n s).lineB = s.lineB := by
  unfold liftAll; exact foldl_keeps (fun s : State => s.lineB) (by intros; simp) _ _
@[simp] theorem liftAll_engine (n : StationId) (s : State) : (liftAll n s).engine = s.engine := by
  unfold liftAll; exact foldl_keeps (fun s : State => s.engine) (by intros; simp) _ _
@[simp] theorem liftAll_sentLog (n : StationId) (s : State) : (liftAll n s).sentLog = s.sentLog := by
  unfold liftAll; exact foldl_keeps (fun s : State => s.sentLog) (by intros; simp) _ _
@[simp] theorem liftAll_choices (n : StationId) (s : State) : (liftAll n s).choices = s.choices := by
  unfold liftAll; exact foldl_keeps (fun s : State => s.choices) (by intros; simp) _ _
@[simp] theorem liftAll_pending (n : StationId) (s : State) : (liftAll n s).pending = s.pending := by
  unfold liftAll; exact foldl_keeps (fun s : State => s.pending) (by intros; simp) _ _
@[simp] theorem liftAll_fixed (n : StationId) (s : State) : fixed (liftAll n s) = fixed s := by
  apply fixed_of_eq <;> simp

@[simp] theorem startPress_time (n : StationId) (c : ChannelId) (delay width : Nat) (att : Bool) (s : State) : (startPress n c delay width att s).time = s.time := by
  unfold startPress; simp
@[simp] theorem startPress_ctl (n : StationId) (c : ChannelId) (delay width : Nat) (att : Bool) (s : State) : (startPress n c delay width att s).ctl = s.ctl := by
  unfold startPress; simp
@[simp] theorem startPress_sweep (n : StationId) (c : ChannelId) (delay width : Nat) (att : Bool) (s : State) : (startPress n c delay width att s).sweep = s.sweep := by
  unfold startPress; simp
@[simp] theorem startPress_notice (n : StationId) (c : ChannelId) (delay width : Nat) (att : Bool) (s : State) : (startPress n c delay width att s).notice = s.notice := by
  unfold startPress; simp
@[simp] theorem startPress_waitList (n : StationId) (c : ChannelId) (delay width : Nat) (att : Bool) (s : State) : (startPress n c delay width att s).waitList = s.waitList := by
  unfold startPress; simp
@[simp] theorem startPress_cohorts (n : StationId) (c : ChannelId) (delay width : Nat) (att : Bool) (s : State) : (startPress n c delay width att s).cohorts = s.cohorts := by
  unfold startPress; simp
@[simp] theorem startPress_lineA (n : StationId) (c : ChannelId) (delay width : Nat) (att : Bool) (s : State) : (startPress n c delay width att s).lineA = s.lineA := by
  unfold startPress; simp
@[simp] theorem startPress_lineB (n : StationId) (c : ChannelId) (delay width : Nat) (att : Bool) (s : State) : (startPress n c delay width att s).lineB = s.lineB := by
  unfold startPress; simp
@[simp] theorem startPress_engine (n : StationId) (c : ChannelId) (delay width : Nat) (att : Bool) (s : State) : (startPress n c delay width att s).engine = s.engine := by
  unfold startPress; simp
@[simp] theorem startPress_sentLog (n : StationId) (c : ChannelId) (delay width : Nat) (att : Bool) (s : State) : (startPress n c delay width att s).sentLog = s.sentLog := by
  unfold startPress; simp
@[simp] theorem startPress_choices (n : StationId) (c : ChannelId) (delay width : Nat) (att : Bool) (s : State) : (startPress n c delay width att s).choices = s.choices := by
  unfold startPress; simp
@[simp] theorem startPress_pending (n : StationId) (c : ChannelId) (delay width : Nat) (att : Bool) (s : State) : (startPress n c delay width att s).pending = s.pending := by
  unfold startPress; simp
@[simp] theorem startPress_fixed (n : StationId) (c : ChannelId) (delay width : Nat) (att : Bool) (s : State) : fixed (startPress n c delay width att s) = fixed s := by
  apply fixed_of_eq <;> simp
@[simp] theorem pressStep_fixed (n : StationId) (st : InFlight) (c : ChannelId) (delay width : Nat) (s : State) : fixed (pressStep n st c delay width s) = fixed s := by
  unfold pressStep; dsimp only; (repeat' split) <;> simp
@[simp] theorem tapStep_fixed (n : StationId) (c : ChannelId) (period width count : Nat) (s : State) : fixed (tapStep n c period width count s) = fixed s := by
  unfold tapStep; dsimp only; (repeat' split) <;> simp
@[simp] theorem holdStep_fixed (n : StationId) (c : ChannelId) (s : State) : fixed (holdStep n c s) = fixed s := by
  unfold holdStep; dsimp only; (repeat' split) <;> simp
@[simp] theorem liftStep_fixed (n : StationId) (c : Option ChannelId) (s : State) : fixed (liftStep n c s) = fixed s := by
  unfold liftStep; (repeat' split) <;> simp
@[simp] theorem delayEnd_fixed (n : StationId) (c : ChannelId) (s : State) : fixed (delayEnd n c s) = fixed s := by
  unfold delayEnd; dsimp only; (repeat' split) <;> simp
@[simp] theorem pressWidthEnd_fixed (n : StationId) (c : ChannelId) (s : State) : fixed (pressWidthEnd n c s) = fixed s := by
  unfold pressWidthEnd; dsimp only; (repeat' split) <;> simp
@[simp] theorem tapOnEnd_fixed (n : StationId) (c : ChannelId) (s : State) : fixed (tapOnEnd n c s) = fixed s := by
  unfold tapOnEnd; dsimp only; (repeat' split) <;> simp

@[simp] theorem bindUnit_time (u : UnitId) (n : StationId) (slot : SlotId) (arm : ArmSettings) (s : State) : (bindUnit u n slot arm s).time = s.time := by
  unfold bindUnit; simp
@[simp] theorem bindUnit_ctl (u : UnitId) (n : StationId) (slot : SlotId) (arm : ArmSettings) (s : State) : (bindUnit u n slot arm s).ctl = s.ctl := by
  unfold bindUnit; simp
@[simp] theorem bindUnit_sweep (u : UnitId) (n : StationId) (slot : SlotId) (arm : ArmSettings) (s : State) : (bindUnit u n slot arm s).sweep = s.sweep := by
  unfold bindUnit; simp
@[simp] theorem bindUnit_notice (u : UnitId) (n : StationId) (slot : SlotId) (arm : ArmSettings) (s : State) : (bindUnit u n slot arm s).notice = s.notice := by
  unfold bindUnit; simp
@[simp] theorem bindUnit_stations (u : UnitId) (n : StationId) (slot : SlotId) (arm : ArmSettings) (s : State) : (bindUnit u n slot arm s).stations = s.stations := by
  unfold bindUnit; simp
@[simp] theorem bindUnit_waitList (u : UnitId) (n : StationId) (slot : SlotId) (arm : ArmSettings) (s : State) : (bindUnit u n slot arm s).waitList = s.waitList := by
  unfold bindUnit; simp
@[simp] theorem bindUnit_cohorts (u : UnitId) (n : StationId) (slot : SlotId) (arm : ArmSettings) (s : State) : (bindUnit u n slot arm s).cohorts = s.cohorts := by
  unfold bindUnit; simp
@[simp] theorem bindUnit_lineA (u : UnitId) (n : StationId) (slot : SlotId) (arm : ArmSettings) (s : State) : (bindUnit u n slot arm s).lineA = s.lineA := by
  unfold bindUnit; simp
@[simp] theorem bindUnit_lineB (u : UnitId) (n : StationId) (slot : SlotId) (arm : ArmSettings) (s : State) : (bindUnit u n slot arm s).lineB = s.lineB := by
  unfold bindUnit; simp
@[simp] theorem bindUnit_engine (u : UnitId) (n : StationId) (slot : SlotId) (arm : ArmSettings) (s : State) : (bindUnit u n slot arm s).engine = s.engine := by
  unfold bindUnit; simp
@[simp] theorem bindUnit_sentLog (u : UnitId) (n : StationId) (slot : SlotId) (arm : ArmSettings) (s : State) : (bindUnit u n slot arm s).sentLog = s.sentLog := by
  unfold bindUnit; simp
@[simp] theorem bindUnit_choices (u : UnitId) (n : StationId) (slot : SlotId) (arm : ArmSettings) (s : State) : (bindUnit u n slot arm s).choices = s.choices := by
  unfold bindUnit; simp
@[simp] theorem bindUnit_pending (u : UnitId) (n : StationId) (slot : SlotId) (arm : ArmSettings) (s : State) : (bindUnit u n slot arm s).pending = s.pending := by
  unfold bindUnit; simp
@[simp] theorem bindUnit_fixed (u : UnitId) (n : StationId) (slot : SlotId) (arm : ArmSettings) (s : State) : fixed (bindUnit u n slot arm s) = fixed s := by
  apply fixed_of_eq <;> simp

@[simp] theorem grantUnit_time (u : UnitId) (e : WaitEntry) (s : State) : (grantUnit u e s).time = s.time := by
  unfold grantUnit; simp
@[simp] theorem grantUnit_ctl (u : UnitId) (e : WaitEntry) (s : State) : (grantUnit u e s).ctl = s.ctl := by
  unfold grantUnit; simp
@[simp] theorem grantUnit_sweep (u : UnitId) (e : WaitEntry) (s : State) : (grantUnit u e s).sweep = s.sweep := by
  unfold grantUnit; simp
@[simp] theorem grantUnit_waitList (u : UnitId) (e : WaitEntry) (s : State) : (grantUnit u e s).waitList = s.waitList := by
  unfold grantUnit; simp
@[simp] theorem grantUnit_cohorts (u : UnitId) (e : WaitEntry) (s : State) : (grantUnit u e s).cohorts = s.cohorts := by
  unfold grantUnit; simp
@[simp] theorem grantUnit_lineA (u : UnitId) (e : WaitEntry) (s : State) : (grantUnit u e s).lineA = s.lineA := by
  unfold grantUnit; simp
@[simp] theorem grantUnit_lineB (u : UnitId) (e : WaitEntry) (s : State) : (grantUnit u e s).lineB = s.lineB := by
  unfold grantUnit; simp
@[simp] theorem grantUnit_sentLog (u : UnitId) (e : WaitEntry) (s : State) : (grantUnit u e s).sentLog = s.sentLog := by
  unfold grantUnit; simp
@[simp] theorem grantUnit_choices (u : UnitId) (e : WaitEntry) (s : State) : (grantUnit u e s).choices = s.choices := by
  unfold grantUnit; simp
@[simp] theorem grantUnit_pending (u : UnitId) (e : WaitEntry) (s : State) : (grantUnit u e s).pending = s.pending := by
  unfold grantUnit; simp
@[simp] theorem grantUnit_fixed (u : UnitId) (e : WaitEntry) (s : State) : fixed (grantUnit u e s) = fixed s := by
  apply fixed_of_eq <;> simp

@[simp] theorem arbitrateUnit_time (u : UnitId) (s : State) : (arbitrateUnit s u).time = s.time := by
  unfold arbitrateUnit; (repeat' split) <;> simp
@[simp] theorem arbitrateUnit_ctl (u : UnitId) (s : State) : (arbitrateUnit s u).ctl = s.ctl := by
  unfold arbitrateUnit; (repeat' split) <;> simp
@[simp] theorem arbitrateUnit_sweep (u : UnitId) (s : State) : (arbitrateUnit s u).sweep = s.sweep := by
  unfold arbitrateUnit; (repeat' split) <;> simp
@[simp] theorem arbitrateUnit_cohorts (u : UnitId) (s : State) : (arbitrateUnit s u).cohorts = s.cohorts := by
  unfold arbitrateUnit; (repeat' split) <;> simp
@[simp] theorem arbitrateUnit_lineA (u : UnitId) (s : State) : (arbitrateUnit s u).lineA = s.lineA := by
  unfold arbitrateUnit; (repeat' split) <;> simp
@[simp] theorem arbitrateUnit_lineB (u : UnitId) (s : State) : (arbitrateUnit s u).lineB = s.lineB := by
  unfold arbitrateUnit; (repeat' split) <;> simp
@[simp] theorem arbitrateUnit_sentLog (u : UnitId) (s : State) : (arbitrateUnit s u).sentLog = s.sentLog := by
  unfold arbitrateUnit; (repeat' split) <;> simp
@[simp] theorem arbitrateUnit_choices (u : UnitId) (s : State) : (arbitrateUnit s u).choices = s.choices := by
  unfold arbitrateUnit; (repeat' split) <;> simp
@[simp] theorem arbitrateUnit_pending (u : UnitId) (s : State) : (arbitrateUnit s u).pending = s.pending := by
  unfold arbitrateUnit; (repeat' split) <;> simp
@[simp] theorem arbitrateUnit_fixed (u : UnitId) (s : State) : fixed (arbitrateUnit s u) = fixed s := by
  apply fixed_of_eq <;> simp

@[simp] theorem arbitrate_time (s : State) : (arbitrate s).time = s.time := by
  unfold arbitrate; exact foldl_keeps (fun s : State => s.time) (by intros; simp) _ _
@[simp] theorem arbitrate_ctl (s : State) : (arbitrate s).ctl = s.ctl := by
  unfold arbitrate; exact foldl_keeps (fun s : State => s.ctl) (by intros; simp) _ _
@[simp] theorem arbitrate_sweep (s : State) : (arbitrate s).sweep = s.sweep := by
  unfold arbitrate; exact foldl_keeps (fun s : State => s.sweep) (by intros; simp) _ _
@[simp] theorem arbitrate_cohorts (s : State) : (arbitrate s).cohorts = s.cohorts := by
  unfold arbitrate; exact foldl_keeps (fun s : State => s.cohorts) (by intros; simp) _ _
@[simp] theorem arbitrate_lineA (s : State) : (arbitrate s).lineA = s.lineA := by
  unfold arbitrate; exact foldl_keeps (fun s : State => s.lineA) (by intros; simp) _ _
@[simp] theorem arbitrate_lineB (s : State) : (arbitrate s).lineB = s.lineB := by
  unfold arbitrate; exact foldl_keeps (fun s : State => s.lineB) (by intros; simp) _ _
@[simp] theorem arbitrate_sentLog (s : State) : (arbitrate s).sentLog = s.sentLog := by
  unfold arbitrate; exact foldl_keeps (fun s : State => s.sentLog) (by intros; simp) _ _
@[simp] theorem arbitrate_choices (s : State) : (arbitrate s).choices = s.choices := by
  unfold arbitrate; exact foldl_keeps (fun s : State => s.choices) (by intros; simp) _ _
@[simp] theorem arbitrate_pending (s : State) : (arbitrate s).pending = s.pending := by
  unfold arbitrate; exact foldl_keeps (fun s : State => s.pending) (by intros; simp) _ _
@[simp] theorem arbitrate_fixed (s : State) : fixed (arbitrate s) = fixed s := by
  apply fixed_of_eq <;> simp

@[simp] theorem freeOneUnit_time (u : UnitId) (s : State) : (freeOneUnit u s).time = s.time := by
  unfold freeOneUnit; simp
@[simp] theorem freeOneUnit_ctl (u : UnitId) (s : State) : (freeOneUnit u s).ctl = s.ctl := by
  unfold freeOneUnit; simp
@[simp] theorem freeOneUnit_sweep (u : UnitId) (s : State) : (freeOneUnit u s).sweep = s.sweep := by
  unfold freeOneUnit; simp
@[simp] theorem freeOneUnit_notice (u : UnitId) (s : State) : (freeOneUnit u s).notice = s.notice := by
  unfold freeOneUnit; simp
@[simp] theorem freeOneUnit_stations (u : UnitId) (s : State) : (freeOneUnit u s).stations = s.stations := by
  unfold freeOneUnit; simp
@[simp] theorem freeOneUnit_waitList (u : UnitId) (s : State) : (freeOneUnit u s).waitList = s.waitList := by
  unfold freeOneUnit; simp
@[simp] theorem freeOneUnit_cohorts (u : UnitId) (s : State) : (freeOneUnit u s).cohorts = s.cohorts := by
  unfold freeOneUnit; simp
@[simp] theorem freeOneUnit_lineA (u : UnitId) (s : State) : (freeOneUnit u s).lineA = s.lineA := by
  unfold freeOneUnit; simp
@[simp] theorem freeOneUnit_lineB (u : UnitId) (s : State) : (freeOneUnit u s).lineB = s.lineB := by
  unfold freeOneUnit; simp
@[simp] theorem freeOneUnit_engine (u : UnitId) (s : State) : (freeOneUnit u s).engine = s.engine := by
  unfold freeOneUnit; simp
@[simp] theorem freeOneUnit_sentLog (u : UnitId) (s : State) : (freeOneUnit u s).sentLog = s.sentLog := by
  unfold freeOneUnit; simp
@[simp] theorem freeOneUnit_choices (u : UnitId) (s : State) : (freeOneUnit u s).choices = s.choices := by
  unfold freeOneUnit; simp
@[simp] theorem freeOneUnit_pending (u : UnitId) (s : State) : (freeOneUnit u s).pending = s.pending := by
  unfold freeOneUnit; simp
@[simp] theorem freeOneUnit_fixed (u : UnitId) (s : State) : fixed (freeOneUnit u s) = fixed s := by
  apply fixed_of_eq <;> simp

@[simp] theorem abandonUnits_time (n : StationId) (s : State) : (abandonUnits n s).time = s.time := by
  unfold abandonUnits; simp
@[simp] theorem abandonUnits_ctl (n : StationId) (s : State) : (abandonUnits n s).ctl = s.ctl := by
  unfold abandonUnits; simp
@[simp] theorem abandonUnits_sweep (n : StationId) (s : State) : (abandonUnits n s).sweep = s.sweep := by
  unfold abandonUnits; simp
@[simp] theorem abandonUnits_notice (n : StationId) (s : State) : (abandonUnits n s).notice = s.notice := by
  unfold abandonUnits; simp
@[simp] theorem abandonUnits_stations (n : StationId) (s : State) : (abandonUnits n s).stations = s.stations := by
  unfold abandonUnits; simp
@[simp] theorem abandonUnits_cohorts (n : StationId) (s : State) : (abandonUnits n s).cohorts = s.cohorts := by
  unfold abandonUnits; simp
@[simp] theorem abandonUnits_lineA (n : StationId) (s : State) : (abandonUnits n s).lineA = s.lineA := by
  unfold abandonUnits; simp
@[simp] theorem abandonUnits_lineB (n : StationId) (s : State) : (abandonUnits n s).lineB = s.lineB := by
  unfold abandonUnits; simp
@[simp] theorem abandonUnits_engine (n : StationId) (s : State) : (abandonUnits n s).engine = s.engine := by
  unfold abandonUnits; simp
@[simp] theorem abandonUnits_sentLog (n : StationId) (s : State) : (abandonUnits n s).sentLog = s.sentLog := by
  unfold abandonUnits; simp
@[simp] theorem abandonUnits_choices (n : StationId) (s : State) : (abandonUnits n s).choices = s.choices := by
  unfold abandonUnits; simp
@[simp] theorem abandonUnits_pending (n : StationId) (s : State) : (abandonUnits n s).pending = s.pending := by
  unfold abandonUnits; simp
@[simp] theorem abandonUnits_fixed (n : StationId) (s : State) : fixed (abandonUnits n s) = fixed s := by
  apply fixed_of_eq <;> simp

@[simp] theorem startUnits_time (n : StationId) (cond : StartCond) (stamp : Word) (s : State) : (startUnits n cond stamp s).time = s.time := by
  unfold startUnits; simp
@[simp] theorem startUnits_ctl (n : StationId) (cond : StartCond) (stamp : Word) (s : State) : (startUnits n cond stamp s).ctl = s.ctl := by
  unfold startUnits; simp
@[simp] theorem startUnits_sweep (n : StationId) (cond : StartCond) (stamp : Word) (s : State) : (startUnits n cond stamp s).sweep = s.sweep := by
  unfold startUnits; simp
@[simp] theorem startUnits_notice (n : StationId) (cond : StartCond) (stamp : Word) (s : State) : (startUnits n cond stamp s).notice = s.notice := by
  unfold startUnits; simp
@[simp] theorem startUnits_stations (n : StationId) (cond : StartCond) (stamp : Word) (s : State) : (startUnits n cond stamp s).stations = s.stations := by
  unfold startUnits; simp
@[simp] theorem startUnits_waitList (n : StationId) (cond : StartCond) (stamp : Word) (s : State) : (startUnits n cond stamp s).waitList = s.waitList := by
  unfold startUnits; simp
@[simp] theorem startUnits_cohorts (n : StationId) (cond : StartCond) (stamp : Word) (s : State) : (startUnits n cond stamp s).cohorts = s.cohorts := by
  unfold startUnits; simp
@[simp] theorem startUnits_lineA (n : StationId) (cond : StartCond) (stamp : Word) (s : State) : (startUnits n cond stamp s).lineA = s.lineA := by
  unfold startUnits; simp
@[simp] theorem startUnits_lineB (n : StationId) (cond : StartCond) (stamp : Word) (s : State) : (startUnits n cond stamp s).lineB = s.lineB := by
  unfold startUnits; simp
@[simp] theorem startUnits_engine (n : StationId) (cond : StartCond) (stamp : Word) (s : State) : (startUnits n cond stamp s).engine = s.engine := by
  unfold startUnits; simp
@[simp] theorem startUnits_sentLog (n : StationId) (cond : StartCond) (stamp : Word) (s : State) : (startUnits n cond stamp s).sentLog = s.sentLog := by
  unfold startUnits; simp
@[simp] theorem startUnits_choices (n : StationId) (cond : StartCond) (stamp : Word) (s : State) : (startUnits n cond stamp s).choices = s.choices := by
  unfold startUnits; simp
@[simp] theorem startUnits_pending (n : StationId) (cond : StartCond) (stamp : Word) (s : State) : (startUnits n cond stamp s).pending = s.pending := by
  unfold startUnits; simp
@[simp] theorem startUnits_fixed (n : StationId) (cond : StartCond) (stamp : Word) (s : State) : fixed (startUnits n cond stamp s) = fixed s := by
  apply fixed_of_eq <;> simp
@[simp] theorem collectUnit_fixed (n : StationId) (u : UnitId) (s : State) : fixed (collectUnit n u s) = fixed s := by
  unfold collectUnit; simp
@[simp] theorem unitDone_fixed (u : UnitId) (comp : Completion) (x : MeasUnit) (s : State) : fixed (unitDone u comp x s) = fixed s := by
  unfold unitDone; dsimp only; (repeat' split) <;> simp
@[simp] theorem armStep_fixed (n : StationId) (st : InFlight) (slot : SlotId) (arm : ArmSettings) (s : State) : fixed (armStep n st slot arm s) = fixed s := by
  unfold armStep; (repeat' split) <;> simp <;> rfl
@[simp] theorem collectStep_fixed (n : StationId) (st : InFlight) (slot : SlotId) (s : State) : fixed (collectStep n st slot s) = fixed s := by
  unfold collectStep; (repeat' split) <;> simp
@[simp] theorem measuredEdge_fixed (u : UnitId) (s : State) : fixed (measuredEdge u s) = fixed s := by
  unfold measuredEdge; dsimp only; (repeat' split) <;> simp
@[simp] theorem windowExpiry_fixed (u : UnitId) (s : State) : fixed (windowExpiry u s) = fixed s := by
  unfold windowExpiry; dsimp only; (repeat' split) <;> simp
@[simp] theorem gateEnd_fixed (u : UnitId) (s : State) : fixed (gateEnd u s) = fixed s := by
  unfold gateEnd; simp

@[simp] theorem abandonCollect_time (n : StationId) (slot : SlotId) (s : State) : (abandonCollect n slot s).time = s.time := by
  unfold abandonCollect; (repeat' split) <;> simp
@[simp] theorem abandonCollect_ctl (n : StationId) (slot : SlotId) (s : State) : (abandonCollect n slot s).ctl = s.ctl := by
  unfold abandonCollect; (repeat' split) <;> simp
@[simp] theorem abandonCollect_sweep (n : StationId) (slot : SlotId) (s : State) : (abandonCollect n slot s).sweep = s.sweep := by
  unfold abandonCollect; (repeat' split) <;> simp
@[simp] theorem abandonCollect_notice (n : StationId) (slot : SlotId) (s : State) : (abandonCollect n slot s).notice = s.notice := by
  unfold abandonCollect; (repeat' split) <;> simp
@[simp] theorem abandonCollect_stations (n : StationId) (slot : SlotId) (s : State) : (abandonCollect n slot s).stations = s.stations := by
  unfold abandonCollect; (repeat' split) <;> simp
@[simp] theorem abandonCollect_waitList (n : StationId) (slot : SlotId) (s : State) : (abandonCollect n slot s).waitList = s.waitList := by
  unfold abandonCollect; (repeat' split) <;> simp
@[simp] theorem abandonCollect_cohorts (n : StationId) (slot : SlotId) (s : State) : (abandonCollect n slot s).cohorts = s.cohorts := by
  unfold abandonCollect; (repeat' split) <;> simp
@[simp] theorem abandonCollect_lineA (n : StationId) (slot : SlotId) (s : State) : (abandonCollect n slot s).lineA = s.lineA := by
  unfold abandonCollect; (repeat' split) <;> simp
@[simp] theorem abandonCollect_lineB (n : StationId) (slot : SlotId) (s : State) : (abandonCollect n slot s).lineB = s.lineB := by
  unfold abandonCollect; (repeat' split) <;> simp
@[simp] theorem abandonCollect_engine (n : StationId) (slot : SlotId) (s : State) : (abandonCollect n slot s).engine = s.engine := by
  unfold abandonCollect; (repeat' split) <;> simp
@[simp] theorem abandonCollect_sentLog (n : StationId) (slot : SlotId) (s : State) : (abandonCollect n slot s).sentLog = s.sentLog := by
  unfold abandonCollect; (repeat' split) <;> simp
@[simp] theorem abandonCollect_choices (n : StationId) (slot : SlotId) (s : State) : (abandonCollect n slot s).choices = s.choices := by
  unfold abandonCollect; (repeat' split) <;> simp
@[simp] theorem abandonCollect_pending (n : StationId) (slot : SlotId) (s : State) : (abandonCollect n slot s).pending = s.pending := by
  unfold abandonCollect; (repeat' split) <;> simp
@[simp] theorem abandonCollect_fixed (n : StationId) (slot : SlotId) (s : State) : fixed (abandonCollect n slot s) = fixed s := by
  apply fixed_of_eq <;> simp
@[simp] theorem collectTimeout_fixed (n : StationId) (s : State) : fixed (collectTimeout n s) = fixed s := by
  unfold collectTimeout; (repeat' split) <;> simp

@[simp] theorem setDrive_time (l : Line) (d : Drive) (s : State) : (setDrive l d s).time = s.time := by
  unfold setDrive; simp
@[simp] theorem setDrive_ctl (l : Line) (d : Drive) (s : State) : (setDrive l d s).ctl = s.ctl := by
  unfold setDrive; simp
@[simp] theorem setDrive_sweep (l : Line) (d : Drive) (s : State) : (setDrive l d s).sweep = s.sweep := by
  unfold setDrive; simp
@[simp] theorem setDrive_notice (l : Line) (d : Drive) (s : State) : (setDrive l d s).notice = s.notice := by
  unfold setDrive; simp
@[simp] theorem setDrive_stations (l : Line) (d : Drive) (s : State) : (setDrive l d s).stations = s.stations := by
  unfold setDrive; simp
@[simp] theorem setDrive_units (l : Line) (d : Drive) (s : State) : (setDrive l d s).units = s.units := by
  unfold setDrive; simp
@[simp] theorem setDrive_waitList (l : Line) (d : Drive) (s : State) : (setDrive l d s).waitList = s.waitList := by
  unfold setDrive; simp
@[simp] theorem setDrive_cohorts (l : Line) (d : Drive) (s : State) : (setDrive l d s).cohorts = s.cohorts := by
  unfold setDrive; simp
@[simp] theorem setDrive_engine (l : Line) (d : Drive) (s : State) : (setDrive l d s).engine = s.engine := by
  unfold setDrive; simp
@[simp] theorem setDrive_sentLog (l : Line) (d : Drive) (s : State) : (setDrive l d s).sentLog = s.sentLog := by
  unfold setDrive; simp
@[simp] theorem setDrive_choices (l : Line) (d : Drive) (s : State) : (setDrive l d s).choices = s.choices := by
  unfold setDrive; simp
@[simp] theorem setDrive_pending (l : Line) (d : Drive) (s : State) : (setDrive l d s).pending = s.pending := by
  unfold setDrive; simp
@[simp] theorem setDrive_fixed (l : Line) (d : Drive) (s : State) : fixed (setDrive l d s) = fixed s := by
  apply fixed_of_eq <;> simp

@[simp] theorem judgeLine_time (l : Line) (s : State) : (judgeLine l s).time = s.time := by
  unfold judgeLine; (repeat' split) <;> simp
@[simp] theorem judgeLine_ctl (l : Line) (s : State) : (judgeLine l s).ctl = s.ctl := by
  unfold judgeLine; (repeat' split) <;> simp
@[simp] theorem judgeLine_sweep (l : Line) (s : State) : (judgeLine l s).sweep = s.sweep := by
  unfold judgeLine; (repeat' split) <;> simp
@[simp] theorem judgeLine_notice (l : Line) (s : State) : (judgeLine l s).notice = s.notice := by
  unfold judgeLine; (repeat' split) <;> simp
@[simp] theorem judgeLine_stations (l : Line) (s : State) : (judgeLine l s).stations = s.stations := by
  unfold judgeLine; (repeat' split) <;> simp
@[simp] theorem judgeLine_units (l : Line) (s : State) : (judgeLine l s).units = s.units := by
  unfold judgeLine; (repeat' split) <;> simp
@[simp] theorem judgeLine_waitList (l : Line) (s : State) : (judgeLine l s).waitList = s.waitList := by
  unfold judgeLine; (repeat' split) <;> simp
@[simp] theorem judgeLine_cohorts (l : Line) (s : State) : (judgeLine l s).cohorts = s.cohorts := by
  unfold judgeLine; (repeat' split) <;> simp
@[simp] theorem judgeLine_engine (l : Line) (s : State) : (judgeLine l s).engine = s.engine := by
  unfold judgeLine; (repeat' split) <;> simp
@[simp] theorem judgeLine_sentLog (l : Line) (s : State) : (judgeLine l s).sentLog = s.sentLog := by
  unfold judgeLine; (repeat' split) <;> simp
@[simp] theorem judgeLine_choices (l : Line) (s : State) : (judgeLine l s).choices = s.choices := by
  unfold judgeLine; (repeat' split) <;> simp
@[simp] theorem judgeLine_pending (l : Line) (s : State) : (judgeLine l s).pending = s.pending := by
  unfold judgeLine; (repeat' split) <;> simp
@[simp] theorem judgeLine_fixed (l : Line) (s : State) : fixed (judgeLine l s) = fixed s := by
  apply fixed_of_eq <;> simp

@[simp] theorem releasePulse_time (a : Arrival) (s : State) : (releasePulse a s).1.time = s.time := by
  unfold releasePulse; (repeat' split) <;> simp
@[simp] theorem releasePulse_ctl (a : Arrival) (s : State) : (releasePulse a s).1.ctl = s.ctl := by
  unfold releasePulse; (repeat' split) <;> simp
@[simp] theorem releasePulse_sweep (a : Arrival) (s : State) : (releasePulse a s).1.sweep = s.sweep := by
  unfold releasePulse; (repeat' split) <;> simp
@[simp] theorem releasePulse_notice (a : Arrival) (s : State) : (releasePulse a s).1.notice = s.notice := by
  unfold releasePulse; (repeat' split) <;> simp
@[simp] theorem releasePulse_waitList (a : Arrival) (s : State) : (releasePulse a s).1.waitList = s.waitList := by
  unfold releasePulse; (repeat' split) <;> simp
@[simp] theorem releasePulse_cohorts (a : Arrival) (s : State) : (releasePulse a s).1.cohorts = s.cohorts := by
  unfold releasePulse; (repeat' split) <;> simp
@[simp] theorem releasePulse_lineA (a : Arrival) (s : State) : (releasePulse a s).1.lineA = s.lineA := by
  unfold releasePulse; (repeat' split) <;> simp
@[simp] theorem releasePulse_lineB (a : Arrival) (s : State) : (releasePulse a s).1.lineB = s.lineB := by
  unfold releasePulse; (repeat' split) <;> simp
@[simp] theorem releasePulse_engine (a : Arrival) (s : State) : (releasePulse a s).1.engine = s.engine := by
  unfold releasePulse; (repeat' split) <;> simp
@[simp] theorem releasePulse_sentLog (a : Arrival) (s : State) : (releasePulse a s).1.sentLog = s.sentLog := by
  unfold releasePulse; (repeat' split) <;> simp
@[simp] theorem releasePulse_choices (a : Arrival) (s : State) : (releasePulse a s).1.choices = s.choices := by
  unfold releasePulse; (repeat' split) <;> simp
@[simp] theorem releasePulse_pending (a : Arrival) (s : State) : (releasePulse a s).1.pending = s.pending := by
  unfold releasePulse; (repeat' split) <;> simp
@[simp] theorem releasePulse_fixed (a : Arrival) (s : State) : fixed (releasePulse a s).1 = fixed s := by
  apply fixed_of_eq <;> simp
@[simp] theorem releaseStation_fixed (g : Half) (c : Nat) (a : Arrival) (s : State) : fixed (releaseStation g c s a) = fixed s := by
  unfold releaseStation; simp
@[simp] theorem releaseRound_fixed (k : CohortId) (s : State) : fixed (releaseRound k s) = fixed s := by
  unfold releaseRound; (try dsimp only); (repeat' split) <;> simp [foldl_keeps fixed]
@[simp] theorem settleCohort_fixed (k : CohortId) (s : State) : fixed (settleCohort k s) = fixed s := by
  unfold settleCohort; dsimp only; (repeat' split) <;> simp
@[simp] theorem joinLive_fixed (n : StationId) (s : State) : fixed (joinLive n s) = fixed s := by
  unfold joinLive; dsimp only; (repeat' split) <;> simp
@[simp] theorem leaveLive_fixed (n : StationId) (s : State) : fixed (leaveLive n s) = fixed s := by
  unfold leaveLive; (repeat' split) <;> simp
@[simp] theorem leaveArrived_fixed (n : StationId) (s : State) : fixed (leaveArrived n s) = fixed s := by
  unfold leaveArrived; (repeat' split) <;> simp
@[simp] theorem standAt_fixed (n : StationId) (st : InFlight) (k : CohortId) (line : Option Line) (a : Arrival) (s : State) : fixed (standAt n st k line a s) = fixed s := by
  unfold standAt; simp
@[simp] theorem barrierStep_fixed (n : StationId) (st : InFlight) (line : Option Line) (ch : Option ChannelId) (delay width : Nat) (s : State) : fixed (barrierStep n st line ch delay width s) = fixed s := by
  unfold barrierStep; (repeat' split) <;> simp
@[simp] theorem holdLine_fixed (l : Line) (s : State) : fixed (holdLine l s) = fixed s := by
  unfold holdLine; (repeat' split) <;> simp
@[simp] theorem syncRise_fixed (l : Line) (s : State) : fixed (syncRise l s) = fixed s := by
  unfold syncRise; (try dsimp only); (repeat' split) <;> simp [foldl_keeps fixed]

@[simp] theorem putLink_time (n : StationId) (x : Link) (s : State) : (putLink n x s).time = s.time := by
  unfold putLink; dsimp only; (repeat' split) <;> simp
@[simp] theorem putLink_ctl (n : StationId) (x : Link) (s : State) : (putLink n x s).ctl = s.ctl := by
  unfold putLink; dsimp only; (repeat' split) <;> simp
@[simp] theorem putLink_sweep (n : StationId) (x : Link) (s : State) : (putLink n x s).sweep = s.sweep := by
  unfold putLink; dsimp only; (repeat' split) <;> simp
@[simp] theorem putLink_notice (n : StationId) (x : Link) (s : State) : (putLink n x s).notice = s.notice := by
  unfold putLink; dsimp only; (repeat' split) <;> simp
@[simp] theorem putLink_waitList (n : StationId) (x : Link) (s : State) : (putLink n x s).waitList = s.waitList := by
  unfold putLink; dsimp only; (repeat' split) <;> simp
@[simp] theorem putLink_cohorts (n : StationId) (x : Link) (s : State) : (putLink n x s).cohorts = s.cohorts := by
  unfold putLink; dsimp only; (repeat' split) <;> simp
@[simp] theorem putLink_lineA (n : StationId) (x : Link) (s : State) : (putLink n x s).lineA = s.lineA := by
  unfold putLink; dsimp only; (repeat' split) <;> simp
@[simp] theorem putLink_lineB (n : StationId) (x : Link) (s : State) : (putLink n x s).lineB = s.lineB := by
  unfold putLink; dsimp only; (repeat' split) <;> simp
@[simp] theorem putLink_engine (n : StationId) (x : Link) (s : State) : (putLink n x s).engine = s.engine := by
  unfold putLink; dsimp only; (repeat' split) <;> simp
@[simp] theorem putLink_sentLog (n : StationId) (x : Link) (s : State) : (putLink n x s).sentLog = s.sentLog := by
  unfold putLink; dsimp only; (repeat' split) <;> simp
@[simp] theorem putLink_choices (n : StationId) (x : Link) (s : State) : (putLink n x s).choices = s.choices := by
  unfold putLink; dsimp only; (repeat' split) <;> simp
@[simp] theorem putLink_pending (n : StationId) (x : Link) (s : State) : (putLink n x s).pending = s.pending := by
  unfold putLink; dsimp only; (repeat' split) <;> simp
@[simp] theorem putLink_fixed (n : StationId) (x : Link) (s : State) : fixed (putLink n x s) = fixed s := by
  apply fixed_of_eq <;> simp

@[simp] theorem linkTick_time (n : StationId) (s : State) : (linkTick s n).time = s.time := by
  unfold linkTick; simp
@[simp] theorem linkTick_ctl (n : StationId) (s : State) : (linkTick s n).ctl = s.ctl := by
  unfold linkTick; simp
@[simp] theorem linkTick_sweep (n : StationId) (s : State) : (linkTick s n).sweep = s.sweep := by
  unfold linkTick; simp
@[simp] theorem linkTick_notice (n : StationId) (s : State) : (linkTick s n).notice = s.notice := by
  unfold linkTick; simp
@[simp] theorem linkTick_waitList (n : StationId) (s : State) : (linkTick s n).waitList = s.waitList := by
  unfold linkTick; simp
@[simp] theorem linkTick_cohorts (n : StationId) (s : State) : (linkTick s n).cohorts = s.cohorts := by
  unfold linkTick; simp
@[simp] theorem linkTick_lineA (n : StationId) (s : State) : (linkTick s n).lineA = s.lineA := by
  unfold linkTick; simp
@[simp] theorem linkTick_lineB (n : StationId) (s : State) : (linkTick s n).lineB = s.lineB := by
  unfold linkTick; simp
@[simp] theorem linkTick_engine (n : StationId) (s : State) : (linkTick s n).engine = s.engine := by
  unfold linkTick; simp
@[simp] theorem linkTick_sentLog (n : StationId) (s : State) : (linkTick s n).sentLog = s.sentLog := by
  unfold linkTick; simp
@[simp] theorem linkTick_choices (n : StationId) (s : State) : (linkTick s n).choices = s.choices := by
  unfold linkTick; simp
@[simp] theorem linkTick_pending (n : StationId) (s : State) : (linkTick s n).pending = s.pending := by
  unfold linkTick; simp
@[simp] theorem linkTick_fixed (n : StationId) (s : State) : fixed (linkTick s n) = fixed s := by
  apply fixed_of_eq <;> simp

@[simp] theorem enterRecover_time (n : StationId) (s : State) : (enterRecover n s).time = s.time := by
  unfold enterRecover; simp
@[simp] theorem enterRecover_ctl (n : StationId) (s : State) : (enterRecover n s).ctl = s.ctl := by
  unfold enterRecover; simp
@[simp] theorem enterRecover_sweep (n : StationId) (s : State) : (enterRecover n s).sweep = s.sweep := by
  unfold enterRecover; simp
@[simp] theorem enterRecover_notice (n : StationId) (s : State) : (enterRecover n s).notice = s.notice := by
  unfold enterRecover; simp
@[simp] theorem enterRecover_waitList (n : StationId) (s : State) : (enterRecover n s).waitList = s.waitList := by
  unfold enterRecover; simp
@[simp] theorem enterRecover_cohorts (n : StationId) (s : State) : (enterRecover n s).cohorts = s.cohorts := by
  unfold enterRecover; simp
@[simp] theorem enterRecover_lineA (n : StationId) (s : State) : (enterRecover n s).lineA = s.lineA := by
  unfold enterRecover; simp
@[simp] theorem enterRecover_lineB (n : StationId) (s : State) : (enterRecover n s).lineB = s.lineB := by
  unfold enterRecover; simp
@[simp] theorem enterRecover_engine (n : StationId) (s : State) : (enterRecover n s).engine = s.engine := by
  unfold enterRecover; simp
@[simp] theorem enterRecover_sentLog (n : StationId) (s : State) : (enterRecover n s).sentLog = s.sentLog := by
  unfold enterRecover; simp
@[simp] theorem enterRecover_choices (n : StationId) (s : State) : (enterRecover n s).choices = s.choices := by
  unfold enterRecover; simp
@[simp] theorem enterRecover_pending (n : StationId) (s : State) : (enterRecover n s).pending = s.pending := by
  unfold enterRecover; simp
@[simp] theorem enterRecover_fixed (n : StationId) (s : State) : fixed (enterRecover n s) = fixed s := by
  apply fixed_of_eq <;> simp

@[simp] theorem linkIdle_time (n : StationId) (s : State) : (linkIdle n s).time = s.time := by
  unfold linkIdle; simp
@[simp] theorem linkIdle_ctl (n : StationId) (s : State) : (linkIdle n s).ctl = s.ctl := by
  unfold linkIdle; simp
@[simp] theorem linkIdle_sweep (n : StationId) (s : State) : (linkIdle n s).sweep = s.sweep := by
  unfold linkIdle; simp
@[simp] theorem linkIdle_notice (n : StationId) (s : State) : (linkIdle n s).notice = s.notice := by
  unfold linkIdle; simp
@[simp] theorem linkIdle_waitList (n : StationId) (s : State) : (linkIdle n s).waitList = s.waitList := by
  unfold linkIdle; simp
@[simp] theorem linkIdle_cohorts (n : StationId) (s : State) : (linkIdle n s).cohorts = s.cohorts := by
  unfold linkIdle; simp
@[simp] theorem linkIdle_lineA (n : StationId) (s : State) : (linkIdle n s).lineA = s.lineA := by
  unfold linkIdle; simp
@[simp] theorem linkIdle_lineB (n : StationId) (s : State) : (linkIdle n s).lineB = s.lineB := by
  unfold linkIdle; simp
@[simp] theorem linkIdle_engine (n : StationId) (s : State) : (linkIdle n s).engine = s.engine := by
  unfold linkIdle; simp
@[simp] theorem linkIdle_sentLog (n : StationId) (s : State) : (linkIdle n s).sentLog = s.sentLog := by
  unfold linkIdle; simp
@[simp] theorem linkIdle_choices (n : StationId) (s : State) : (linkIdle n s).choices = s.choices := by
  unfold linkIdle; simp
@[simp] theorem linkIdle_pending (n : StationId) (s : State) : (linkIdle n s).pending = s.pending := by
  unfold linkIdle; simp
@[simp] theorem linkIdle_fixed (n : StationId) (s : State) : fixed (linkIdle n s) = fixed s := by
  apply fixed_of_eq <;> simp

@[simp] theorem beginBreak_time (n : StationId) (s : State) : (beginBreak n s).time = s.time := by
  unfold beginBreak; simp
@[simp] theorem beginBreak_ctl (n : StationId) (s : State) : (beginBreak n s).ctl = s.ctl := by
  unfold beginBreak; simp
@[simp] theorem beginBreak_sweep (n : StationId) (s : State) : (beginBreak n s).sweep = s.sweep := by
  unfold beginBreak; simp
@[simp] theorem beginBreak_notice (n : StationId) (s : State) : (beginBreak n s).notice = s.notice := by
  unfold beginBreak; simp
@[simp] theorem beginBreak_waitList (n : StationId) (s : State) : (beginBreak n s).waitList = s.waitList := by
  unfold beginBreak; simp
@[simp] theorem beginBreak_cohorts (n : StationId) (s : State) : (beginBreak n s).cohorts = s.cohorts := by
  unfold beginBreak; simp
@[simp] theorem beginBreak_lineA (n : StationId) (s : State) : (beginBreak n s).lineA = s.lineA := by
  unfold beginBreak; simp
@[simp] theorem beginBreak_lineB (n : StationId) (s : State) : (beginBreak n s).lineB = s.lineB := by
  unfold beginBreak; simp
@[simp] theorem beginBreak_engine (n : StationId) (s : State) : (beginBreak n s).engine = s.engine := by
  unfold beginBreak; simp
@[simp] theorem beginBreak_sentLog (n : StationId) (s : State) : (beginBreak n s).sentLog = s.sentLog := by
  unfold beginBreak; simp
@[simp] theorem beginBreak_choices (n : StationId) (s : State) : (beginBreak n s).choices = s.choices := by
  unfold beginBreak; simp
@[simp] theorem beginBreak_pending (n : StationId) (s : State) : (beginBreak n s).pending = s.pending := by
  unfold beginBreak; simp
@[simp] theorem beginBreak_fixed (n : StationId) (s : State) : fixed (beginBreak n s) = fixed s := by
  apply fixed_of_eq <;> simp
@[simp] theorem queryStep_fixed (n : StationId) (st : InFlight) (s : State) : fixed (queryStep n st s) = fixed s := by
  unfold queryStep; dsimp only; (repeat' split) <;> simp
@[simp] theorem delimiterEnd_fixed (n : StationId) (s : State) : fixed (delimiterEnd n s) = fixed s := by
  unfold delimiterEnd; (repeat' split) <;> simp
@[simp] theorem querySent_fixed (n : StationId) (s : State) : fixed (querySent n s) = fixed s := by
  unfold querySent; (repeat' split) <;> simp
@[simp] theorem answerStart_fixed (n : StationId) (s : State) : fixed (answerStart n s) = fixed s := by
  unfold answerStart; simp
@[simp] theorem answerError_fixed (n : StationId) (code : Code) (i : Nat) (x : Link) (s : State) : fixed (answerError n code i x s) = fixed s := by
  unfold answerError; simp
@[simp] theorem answerByte_fixed (n : StationId) (bits : List Bool) (s : State) : fixed (answerByte n bits s) = fixed s := by
  unfold answerByte; dsimp only; (repeat' split) <;> simp
@[simp] theorem cutLink_fixed (n : StationId) (s : State) : fixed (cutLink n s) = fixed s := by
  unfold cutLink; dsimp only; (repeat' split) <;> simp
@[simp] theorem lineFaultEntry_fixed (n : StationId) (s : State) : fixed (lineFaultEntry n s) = fixed s := by
  unfold lineFaultEntry; dsimp only; (repeat' split) <;> simp
@[simp] theorem awaitAttentionStep_fixed (n : StationId) (st : InFlight) (fresh : Bool) (s : State) : fixed (awaitAttentionStep n st fresh s) = fixed s := by
  unfold awaitAttentionStep; dsimp only; (repeat' split) <;> simp
@[simp] theorem recognise_fixed (n : StationId) (stamp : Word) (s : State) : fixed (recognise n stamp s) = fixed s := by
  unfold recognise; dsimp only; (repeat' split) <;> simp

@[simp] theorem setSupply_time (n : StationId) (x : SupplyState) (s : State) : (setSupply n x s).time = s.time := by
  unfold setSupply; dsimp only; (repeat' split) <;> simp
@[simp] theorem setSupply_ctl (n : StationId) (x : SupplyState) (s : State) : (setSupply n x s).ctl = s.ctl := by
  unfold setSupply; dsimp only; (repeat' split) <;> simp
@[simp] theorem setSupply_sweep (n : StationId) (x : SupplyState) (s : State) : (setSupply n x s).sweep = s.sweep := by
  unfold setSupply; dsimp only; (repeat' split) <;> simp
@[simp] theorem setSupply_units (n : StationId) (x : SupplyState) (s : State) : (setSupply n x s).units = s.units := by
  unfold setSupply; dsimp only; (repeat' split) <;> simp
@[simp] theorem setSupply_waitList (n : StationId) (x : SupplyState) (s : State) : (setSupply n x s).waitList = s.waitList := by
  unfold setSupply; dsimp only; (repeat' split) <;> simp
@[simp] theorem setSupply_cohorts (n : StationId) (x : SupplyState) (s : State) : (setSupply n x s).cohorts = s.cohorts := by
  unfold setSupply; dsimp only; (repeat' split) <;> simp
@[simp] theorem setSupply_lineA (n : StationId) (x : SupplyState) (s : State) : (setSupply n x s).lineA = s.lineA := by
  unfold setSupply; dsimp only; (repeat' split) <;> simp
@[simp] theorem setSupply_lineB (n : StationId) (x : SupplyState) (s : State) : (setSupply n x s).lineB = s.lineB := by
  unfold setSupply; dsimp only; (repeat' split) <;> simp
@[simp] theorem setSupply_sentLog (n : StationId) (x : SupplyState) (s : State) : (setSupply n x s).sentLog = s.sentLog := by
  unfold setSupply; dsimp only; (repeat' split) <;> simp
@[simp] theorem setSupply_choices (n : StationId) (x : SupplyState) (s : State) : (setSupply n x s).choices = s.choices := by
  unfold setSupply; dsimp only; (repeat' split) <;> simp
@[simp] theorem setSupply_pending (n : StationId) (x : SupplyState) (s : State) : (setSupply n x s).pending = s.pending := by
  unfold setSupply; dsimp only; (repeat' split) <;> simp
@[simp] theorem setSupply_fixed (n : StationId) (x : SupplyState) (s : State) : fixed (setSupply n x s) = fixed s := by
  apply fixed_of_eq <;> simp
@[simp] theorem cutTaken_fixed (n : StationId) (st : InFlight) (s : State) : fixed (cutTaken n st s) = fixed s := by
  unfold cutTaken; (repeat' split) <;> simp
@[simp] theorem cutHanded_fixed (n : StationId) (st : InFlight) (s : State) : fixed (cutHanded n st s) = fixed s := by
  unfold cutHanded; (repeat' split) <;> simp
@[simp] theorem cutBlock_fixed (n : StationId) (st : InFlight) (s : State) : fixed (cutBlock n st s) = fixed s := by
  unfold cutBlock; (repeat' split) <;> simp
@[simp] theorem cutFromOutside_fixed (n : StationId) (code : Code) (s : State) : fixed (cutFromOutside n code s) = fixed s := by
  unfold cutFromOutside; (repeat' split) <;> simp
@[simp] theorem endFromOutside_fixed (n : StationId) (code : Code) (s : State) : fixed (endFromOutside n code s) = fixed s := by
  unfold endFromOutside; simp
@[simp] theorem enterHalted_fixed (n : StationId) (r : HaltReason) (s : State) : fixed (enterHalted n r s) = fixed s := by
  unfold enterHalted; simp
@[simp] theorem arriveIdle_fixed (n : StationId) (s : State) : fixed (arriveIdle n s) = fixed s := by
  unfold arriveIdle; simp
@[simp] theorem fetchFailed_fixed (n : StationId) (s : State) : fixed (fetchFailed n s) = fixed s := by
  unfold fetchFailed; dsimp only; (repeat' split) <;> simp
@[simp] theorem fetchEnded_fixed (n : StationId) (s : State) : fixed (fetchEnded n s) = fixed s := by
  unfold fetchEnded; (repeat' split) <;> simp
@[simp] theorem offerFetch_fixed (n : StationId) (s : State) : fixed (offerFetch n s) = fixed s := by
  unfold offerFetch; (repeat' split) <;> simp
@[simp] theorem offerBacklog_fixed (n : StationId) (s : State) : fixed (offerBacklog n s) = fixed s := by
  unfold offerBacklog; (repeat' split) <;> simp
@[simp] theorem abortFetch_fixed (n : StationId) (s : State) : fixed (abortFetch n s) = fixed s := by
  unfold abortFetch; (repeat' split) <;> simp <;> rfl
@[simp] theorem haltFromOutside_fixed (n : StationId) (r : HaltReason) (code : Code) (s : State) : fixed (haltFromOutside n r code s) = fixed s := by
  unfold haltFromOutside; dsimp only; (repeat' split) <;> simp
@[simp] theorem disablePhase_fixed (n : StationId) (s : State) : fixed (disablePhase n s) = fixed s := by
  unfold disablePhase; (repeat' split) <;> simp
@[simp] theorem takeDisable_fixed (n : StationId) (s : State) : fixed (takeDisable n s) = fixed s := by
  unfold takeDisable; dsimp only; (repeat' split) <;> simp
@[simp] theorem startFetch_fixed (n : StationId) (s : State) : fixed (startFetch n s) = fixed s := by
  unfold startFetch; simp
@[simp] theorem startSkip_fixed (n : StationId) (s : State) : fixed (startSkip n s) = fixed s := by
  unfold startSkip; simp
@[simp] theorem takeNext_fixed (n : StationId) (s : State) : fixed (takeNext n s) = fixed s := by
  unfold takeNext; dsimp only; (repeat' split) <;> simp
@[simp] theorem leavePosting_fixed (n : StationId) (s : State) : fixed (leavePosting n s) = fixed s := by
  unfold leavePosting; dsimp only; (repeat' split) <;> simp
@[simp] theorem stripMismatch_fixed (n : StationId) (s : State) : fixed (stripMismatch n s) = fixed s := by
  unfold stripMismatch; simp
@[simp] theorem dispatch_fixed (n : StationId) (bs : List Byte) (s : State) : fixed (dispatch n bs s) = fixed s := by
  unfold dispatch; dsimp only; (repeat' split) <;> simp
@[simp] theorem fetchCompleted_fixed (n : StationId) (bs : List Byte) (s : State) : fixed (fetchCompleted n bs s) = fixed s := by
  unfold fetchCompleted; (repeat' split) <;> simp
@[simp] theorem setupStep_fixed (n : StationId) (v : Settings) (s : State) : fixed (setupStep n v s) = fixed s := by
  unfold setupStep; dsimp only; (repeat' split) <;> simp
@[simp] theorem applyClass_fixed (n : StationId) (code : Code) (d : Disposition) (s : State) : fixed (applyClass n code d s) = fixed s := by
  unfold applyClass; simp
@[simp] theorem reportPosting_fixed (n : StationId) (code : Code) (d : Disposition) (s : State) : fixed (reportPosting n code d s) = fixed s := by
  unfold reportPosting; (repeat' split) <;> simp
@[simp] theorem retireOrdinary_fixed (n : StationId) (code : Code) (flag : Bool) (d : Disposition) (s : State) : fixed (retireOrdinary n code flag d s) = fixed s := by
  unfold retireOrdinary; dsimp only; (repeat' split) <;> simp
@[simp] theorem retireSkipped_fixed (n : StationId) (s : State) : fixed (retireSkipped n s) = fixed s := by
  unfold retireSkipped; simp
@[simp] theorem retire_fixed (n : StationId) (s : State) : fixed (retire n s) = fixed s := by
  unfold retire; (repeat' split) <;> simp
@[simp] theorem discardNext_fixed (n : StationId) (last : Half) (s : State) : fixed (discardNext n last s) = fixed s := by
  unfold discardNext; dsimp only; (repeat' split) <;> simp
@[simp] theorem retireDiscarded_fixed (n : StationId) (s : State) : fixed (retireDiscarded n s) = fixed s := by
  unfold retireDiscarded; dsimp only; (repeat' split) <;> simp
@[simp] theorem enabled_fixed (n : StationId) (h : HostHalf) (s : State) : fixed (enabled n h s) = fixed s := by
  unfold enabled; simp
@[simp] theorem badEntry_fixed (n : StationId) (h : HostHalf) (s : State) : fixed (badEntry n h s) = fixed s := by
  unfold badEntry; dsimp only; (repeat' split) <;> simp
@[simp] theorem enable_fixed (n : StationId) (h : HostHalf) (s : State) : fixed (enable n h s) = fixed s := by
  unfold enable; (repeat' split) <;> simp
@[simp] theorem modeStep_fixed (n : StationId) (h : HostHalf) (s : State) : fixed (modeStep n h s) = fixed s := by
  unfold modeStep; (repeat' split) <;> simp
@[simp] theorem stopStep_fixed (n : StationId) (h : HostHalf) (s : State) : fixed (stopStep n h s) = fixed s := by
  unfold stopStep; dsimp only; (repeat' split) <;> simp
@[simp] theorem resumeContinue_fixed (n : StationId) (s : State) : fixed (resumeContinue n s) = fixed s := by
  unfold resumeContinue; simp
@[simp] theorem resumeDiscard_fixed (n : StationId) (s : State) : fixed (resumeDiscard n s) = fixed s := by
  unfold resumeDiscard; simp
@[simp] theorem resumeStep_fixed (n : StationId) (h : HostHalf) (s : State) : fixed (resumeStep n h s) = fixed s := by
  unfold resumeStep; dsimp only; (repeat' split) <;> simp
@[simp] theorem handoverPassed_fixed (n : StationId) (x : Half) (s : State) : fixed (handoverPassed n x s) = fixed s := by
  unfold handoverPassed; dsimp only; (repeat' split) <;> simp
@[simp] theorem handoverFailed_fixed (n : StationId) (s : State) : fixed (handoverFailed n s) = fixed s := by
  unfold handoverFailed; dsimp only; (repeat' split) <;> simp
@[simp] theorem handoverStep_fixed (n : StationId) (h : HostHalf) (s : State) : fixed (handoverStep n h s) = fixed s := by
  unfold handoverStep; dsimp only; (repeat' split) <;> simp
@[simp] theorem observe_fixed (n : StationId) (bs : List Byte) (s : State) : fixed (observe n bs s) = fixed s := by
  unfold observe; simp
@[simp] theorem observeAll_fixed (data : List Byte) (s : State) : fixed (observeAll data s) = fixed s := by
  unfold observeAll; (try dsimp only); (repeat' split) <;> simp [foldl_keeps fixed]
@[simp] theorem tripSupply_fixed (n : StationId) (s : State) : fixed (tripSupply n s) = fixed s := by
  unfold tripSupply; simp
@[simp] theorem startRamp_fixed (n : StationId) (st : InFlight) (s : State) : fixed (startRamp n st s) = fixed s := by
  unfold startRamp; dsimp only; (repeat' split) <;> simp
@[simp] theorem supplyOn_fixed (n : StationId) (st : InFlight) (s : State) : fixed (supplyOn n st s) = fixed s := by
  unfold supplyOn; dsimp only; (repeat' split) <;> simp
@[simp] theorem supplyOff_fixed (n : StationId) (s : State) : fixed (supplyOff n s) = fixed s := by
  unfold supplyOff; simp
@[simp] theorem unseat_fixed (n : StationId) (s : State) : fixed (unseat n s) = fixed s := by
  unfold unseat; (repeat' split) <;> simp
@[simp] theorem seatChanged_fixed (n : StationId) (closed : Bool) (s : State) : fixed (seatChanged n closed s) = fixed s := by
  unfold seatChanged; dsimp only; (repeat' split) <;> simp
@[simp] theorem firstEvaluation_fixed (n : StationId) (s : State) : fixed (firstEvaluation n s) = fixed s := by
  unfold firstEvaluation; dsimp only; (repeat' split) <;> simp
@[simp] theorem stationInput_fixed (n : StationId) (p : FilteredPin) (high : Bool) (s : State) : fixed (stationInput n p high s) = fixed s := by
  unfold stationInput; simp
@[simp] theorem lineInput_fixed (l : Line) (high : Bool) (s : State) : fixed (lineInput l high s) = fixed s := by
  unfold lineInput; simp
@[simp] theorem inputChange_fixed (i : InputId) (high : Bool) (s : State) : fixed (inputChange i high s) = fixed s := by
  unfold inputChange; dsimp only; (repeat' split) <;> simp
@[simp] theorem stationEdge_fixed (n : StationId) (p : FilteredPin) (high : Bool) (s : State) : fixed (stationEdge n p high s) = fixed s := by
  unfold stationEdge; dsimp only; (repeat' split) <;> simp
@[simp] theorem acceptFilter_fixed (f : FilterId) (s : State) : fixed (acceptFilter f s) = fixed s := by
  unfold acceptFilter; dsimp only; (repeat' split) <;> simp

end Sys2Proof.Laws
end

