-- ==== Sys2Proof/Laws/Ops.lean ====
section
/-! SUPPORT. One lemma per shared operation, in the words of Safety.lean: all that the operation can do. -/

namespace Sys2Proof.Laws

open Sys2Proof.Machine

set_option linter.unusedSimpArgs false

/-- Two states are equal when their fields are. -/
@[ext] theorem state_ext {s t : State} (h1 : s.time = t.time) (h2 : s.ctl = t.ctl) (h3 : s.sweep = t.sweep)
    (h4 : s.notice = t.notice) (h5 : s.stations = t.stations) (h6 : s.units = t.units) (h7 : s.waitList = t.waitList)
    (h8 : s.cohorts = t.cohorts) (h9 : s.lineA = t.lineA) (h10 : s.lineB = t.lineB) (h11 : s.engine = t.engine)
    (h12 : s.sentLog = t.sentLog) (h13 : s.choices = t.choices) (h14 : s.pending = t.pending) : s = t := by
  cases s; cases t; simp_all

/-- A command that answers a next state completes with what holds of it. -/
theorem completes_next {t : State} {P : State → Prop} (h : P t) : Completes (.next t) P := ⟨t, rfl, h⟩

/-! ### Steps in flight -/

/-- A handed step: its station is RUNNING and holds it. -/
theorem handedStep_some {s : State} {n : StationId} {st : InFlight} :
    s.handedStep n = some st ↔ (s.ctx n).state = .running ∧ (s.ctx n).step = some st ∧ st.handed = true := by
  unfold State.handedStep
  split <;> rename_i h1
  · rename_i h2
    split <;> simp_all
    all_goals rintro rfl; assumption
  · constructor
    · intro h; simp at h
    · rintro ⟨a, b, _⟩; exact (h1 _ a b).elim

/-- A step taken by its owning block: its station is at a step and holds it. -/
theorem flyingStep_some {s : State} {n : StationId} {st : InFlight} :
    s.flyingStep n = some st ↔
      ((s.ctx n).state = .running ∨ (s.ctx n).state = .waitingUnit ∨ (s.ctx n).state = .atBarrier) ∧
      (s.ctx n).step = some st ∧ st.handed = false := by
  unfold State.flyingStep
  cases h1 : (s.ctx n).state <;> cases h2 : (s.ctx n).step <;> simp
  all_goals
    constructor
    · rintro ⟨a, rfl⟩; exact ⟨rfl, a⟩
    · rintro ⟨rfl, a⟩; exact ⟨a, rfl⟩

/-! ### Offers (R166) -/

/-- The engine after an offer. -/
theorem offer_engine (r : Request) (s : State) : (offer r s).engine = engineOffered s r := by
  unfold offer engineOffered take
  split
  · split <;> rfl
  · rfl

/-- Only a part-half write's offer touches the writer. -/
theorem offer_notice (r : Request) (s : State) (h : ∀ n, r.kind ≠ .partHalf n) : (offer r s).notice = s.notice := by
  unfold offer take
  split
  · split
    · cases hk : r.kind <;> simp_all
    · rfl
  · rfl

/-- An offer leaves the writer's list alone shorter. -/
theorem offer_notice_await (r : Request) (s : State) :
    (offer r s).notice = { s.notice with awaitHeld := (offer r s).notice.awaitHeld } := by
  unfold offer take
  split
  · split <;> rfl
  · rfl

theorem inRoom_append (e : Engine) (r : Request) (k : ReqKind) :
    ({ e with room := e.room ++ [r] } : Engine).inRoom k = (e.inRoom k || r.kind == k) := by
  simp [Engine.inRoom]

theorem inQueue_append (e : Engine) (x : Entry) (k : ReqKind) :
    ({ e with queue := e.queue ++ [x] } : Engine).inQueue k = (e.inQueue k || x.req.kind == k) := by
  simp [Engine.inQueue]

/-- A request that is no fetch or outcome of the station leaves its limit of one alone (R165). -/
theorem offered_ownBusy (s : State) (r : Request) (n : StationId) (h1 : r.kind ≠ .fetch n) (h2 : r.kind ≠ .outcome n) :
    (engineOffered s r).ownBusy n = s.engine.ownBusy n := by
  unfold engineOffered
  split
  · split
    · simp [Engine.ownBusy, Engine.inQueue, Engine.inRoom, beq_eq_false_iff_ne.2 h1, beq_eq_false_iff_ne.2 h2]
    · simp [Engine.ownBusy, Engine.inQueue, Engine.inRoom, beq_eq_false_iff_ne.2 h1, beq_eq_false_iff_ne.2 h2]
  · rfl

/-- A part-half write leaves every station's limit of one alone (R165, R168). -/
@[simp] theorem queuePartHalf_ownBusy (m n : StationId) (s : State) :
    (queuePartHalf m s).engine.ownBusy n = s.engine.ownBusy n := by
  have hk : ∀ (b : List Byte) (r : Request), (replaceBytes m b r).kind = r.kind := by
    intro b r; unfold replaceBytes; split <;> rfl
  unfold queuePartHalf
  split
  · dsimp only
    split
    · simp [Engine.ownBusy, Engine.inQueue, Engine.inRoom, List.any_map, Function.comp_def, hk]
    · split
      · split
        · rfl
        · simp [Engine.ownBusy, Engine.inQueue, Engine.inRoom, List.any_map, Function.comp_def, hk]
      · rw [offer_engine, offered_ownBusy] <;> simp [partHalfRequest]
  · rfl

/-- A part-half write touches the writer's list alone. -/
theorem queuePartHalf_notice (n : StationId) (s : State) :
    (queuePartHalf n s).notice = { s.notice with awaitHeld := (queuePartHalf n s).notice.awaitHeld } := by
  unfold queuePartHalf
  split
  · dsimp only
    split
    · rfl
    · split
      · split <;> rfl
      · exact offer_notice_await ..
  · rfl

@[simp] theorem queuePartHalf_attention (n : StationId) (s : State) :
    (queuePartHalf n s).notice.attention = s.notice.attention := by rw [queuePartHalf_notice]

@[simp] theorem queuePartHalf_st (n m : StationId) (s : State) : (queuePartHalf n s).st m = s.st m :=
  st_congr (queuePartHalf_stations n s) m

@[simp] theorem queuePartHalf_ctx (n m : StationId) (s : State) : (queuePartHalf n s).ctx m = s.ctx m := by
  rw [State.ctx, queuePartHalf_st]

@[simp] theorem queuePartHalf_now (n : StationId) (s : State) : (queuePartHalf n s).now = s.now := by
  simp [State.now]

@[simp] theorem offer_st (r : Request) (m : StationId) (s : State) : (offer r s).st m = s.st m :=
  st_congr (offer_stations r s) m

@[simp] theorem offer_ctx (r : Request) (m : StationId) (s : State) : (offer r s).ctx m = s.ctx m := by
  rw [State.ctx, offer_st]

@[simp] theorem setAttention_st (i : Nat) (m : StationId) (s : State) : (setAttention i s).st m = s.st m :=
  st_congr (setAttention_stations i s) m

@[simp] theorem setAttention_ctx (i : Nat) (m : StationId) (s : State) : (setAttention i s).ctx m = s.ctx m := by
  rw [State.ctx, setAttention_st]

/-- The attention bit of an event is set, and no set bit is lost (R177). -/
theorem setAttention_bit (i j : Nat) (s : State) (h : j < 32) :
    (setAttention i s).notice.attention.getLsbD j = (s.notice.attention.getLsbD j || decide (i = j)) := by
  unfold setAttention
  split
  · by_cases e : i = j
    · subst e; simp_all
    · simp [e]
  · simp [BitVec.getLsbD_twoPow, h, eq_comm]

/-! ### The Notice Block writer (R180, R181) -/

/-- A send is begun, or nothing happens. -/
theorem noticeKick_attention (s : State) : (noticeKick s).notice.attention = s.notice.attention := by
  unfold noticeKick
  split
  · dsimp only
    rw [offer_notice _ _ (by simp)]
  · rfl

@[simp] theorem noticeKick_st (n : StationId) (s : State) : (noticeKick s).st n = s.st n :=
  st_congr (noticeKick_stations s) n

@[simp] theorem noticeKick_ctx (n : StationId) (s : State) : (noticeKick s).ctx n = s.ctx n := by
  rw [State.ctx, noticeKick_st]

/-! ### The end of a step (R27) -/

/-- With no step in flight there is nothing to end. -/
theorem endStep_none {s : State} {n : StationId} (h : (s.ctx n).step = none) (code : Code) (result : List Byte) :
    endStep n code result s = s := by
  unfold endStep; rw [h]

/-- The end of a step. -/
theorem endStep_ends {s : State} {n : StationId} {st : InFlight} (h : (s.ctx n).step = some st) (code : Code)
    (result : List Byte) : StepEndsAlone n st code result s (endStep n code result s) := by
  unfold endStep stationOffer
  rw [h]
  dsimp only
  split <;> rename_i hb
  · have hb' : s.engine.ownBusy n = true := hb
    refine ⟨⟨?_, ?_⟩, ⟨?_, ?_⟩, ?_⟩
    · simp [State.ctx, endedCtx, hb', endBytes]
    · simp [hb']
    · rfl
    · intro m hm; simp [State.ctx, hm]
    · simp [State.ctx]
  · have hb' : s.engine.ownBusy n = false := by simpa using hb
    refine ⟨⟨?_, ?_⟩, ⟨?_, ?_⟩, ?_⟩
    · simp [State.ctx, endedCtx, hb']
    · rw [offer_engine]
      simp [hb', engineOffered, stationRequest, outcomeWrite, endBytes, Context.recordAddr]
      rfl
    · ext1 <;> simp [offer_notice, stationRequest]
    · intro m hm; simp [hm]
    · simp

/-- The end of a step leaves the other stations alone. -/
theorem endStep_st_ne (s : State) {n m : StationId} (h : m ≠ n) (code : Code) (result : List Byte) :
    (endStep n code result s).st m = s.st m := by
  cases e : (s.ctx n).step with
  | none => rw [endStep_none e]
  | some st => exact (endStep_ends e code result).2.1.2 m h

/-- The end of a station's step leaves another station's limit of one alone (R165). -/
theorem endStep_ownBusy (s : State) {n m : StationId} (h : m ≠ n) (code : Code) (result : List Byte) :
    (endStep n code result s).engine.ownBusy m = s.engine.ownBusy m := by
  cases e : (s.ctx n).step with
  | none => rw [endStep_none e]
  | some st =>
    rw [(endStep_ends e code result).1.2]
    split
    · rfl
    · rw [offered_ownBusy] <;> simp [outcomeWrite, Ne.symm h]

/-! ### Edges (R122) -/

/-- Every unit that reads the signal has one further edge to take. -/
theorem emitEdge_unitsSee (n : StationId) (sig : Signal) (high : Bool) (s : State) :
    UnitsSee n sig high s (emitEdge n sig high s) := by
  intro u
  exact get_map ..

@[simp] theorem emitEdge_st (n m : StationId) (sig : Signal) (high : Bool) (s : State) :
    (emitEdge n sig high s).st m = s.st m := rfl

@[simp] theorem emitEdge_ctx (n m : StationId) (sig : Signal) (high : Bool) (s : State) :
    (emitEdge n sig high s).ctx m = s.ctx m := rfl

/-! ### Channels (R86, R87) -/

/-- A channel that changes: its stamp, the other channels, and the edge of its output. -/
theorem setChan_spec (n : StationId) (c : ChannelId) (x : Channel) (s : State) :
    (setChan n c x s).chan n c =
      (if (s.chan n c).output = false ∧ x.output = true then { x with stamp := s.now } else x) ∧
    OnlyChannel n c s (setChan n c x s) ∧ (setChan n c x s).ctx n = s.ctx n ∧
    OutputEdge n c ((s.chan n c).output != x.output) x.output s (setChan n c x s) := by
  have hs : (setChan n c x s).stations = (s.putChan n c
      (if (s.chan n c).output = false ∧ x.output = true then { x with stamp := s.now } else x)).stations := by
    unfold setChan; dsimp only; simp only [Bool.and_eq_true, Bool.not_eq_true']
    split <;> simp
  have hst : ∀ m, (setChan n c x s).st m = (s.putChan n c
      (if (s.chan n c).output = false ∧ x.output = true then { x with stamp := s.now } else x)).st m :=
    fun m => st_congr hs m
  refine ⟨?_, ⟨⟨?_, ?_⟩, ?_, ?_⟩, ?_, ?_⟩
  · simp only [State.chan, hst]; simp
  · ext1 <;> simp
  · intro m hm; rw [hst]; simp [hm]
  · rw [State.ctx, hst]; simp
  · intro d hd; simp only [State.chan, hst]; simp [hd]
  · rw [State.ctx, hst]; simp
  · unfold OutputEdge setChan
    dsimp only
    by_cases h : (s.chan n c).output = x.output
    · have h' : ((s.st n).chans.get c).output = x.output := h
      simp [h']
    · simp only [bne_iff_ne, ne_eq, h, not_false_eq_true, ↓reduceIte]
      exact emitEdge_unitsSee n (.act c) x.output _

/-! ### The probe link (R59) -/

/-- A link that is put: the line is looked at, and a change of its level is an edge of PROBE. -/
theorem putLink_spec (n : StationId) (l : Link) (s : State) :
    (putLink n l s).st n = { s.st n with link := l.look (s.ctx n).settings.attnMin s.now } ∧
    OnlyStationUnits n s (putLink n l s) ∧
    (l.high = l.mon.high → (putLink n l s).units = s.units) ∧
    (l.high ≠ l.mon.high → UnitsSee n .probe l.high s (putLink n l s)) := by
  unfold putLink
  dsimp only
  split <;> rename_i h
  · refine ⟨by simp, ⟨by ext1 <;> simp, fun m hm => by simp [hm]⟩, fun _ => by simp, fun h' => (h' h).elim⟩
  · refine ⟨by simp, ⟨by ext1 <;> simp, fun m hm => by simp [hm]⟩, fun h' => (h h').elim, fun _ => ?_⟩
    exact emitEdge_unitsSee n .probe l.high _

/-! ### The pool (R134) -/

/-- With nothing waiting the arbiter does nothing. -/
theorem arbitrate_nil {s : State} (h : s.waitList = []) : arbitrate s = s := by
  have hu : ∀ (t : State) (u : UnitId), t.waitList = [] → arbitrateUnit t u = t := by
    intro t u ht
    unfold arbitrateUnit
    split
    · rw [ht]
    · rfl
  have hf : ∀ (l : List UnitId), l.foldl arbitrateUnit s = s := by
    intro l
    induction l with
    | nil => rfl
    | cons a l ih => rw [List.foldl_cons, hu s a h, ih]
  exact hf _

/-! ### The supply (R108) -/

/-- A supply that enters a state: the station's supply block, and at most a part-half write. -/
theorem setSupply_spec (n : StationId) (x : SupplyState) (s : State) :
    ((setSupply n x s).st n).power.supply = x ∧ (setSupply n x s).ctx n = s.ctx n ∧
    ((setSupply n x s).st n).power.tripCount = (s.st n).power.tripCount ∧
    (setSupply n x s).engine.ownBusy n = s.engine.ownBusy n ∧ OnlyStationShared n s (setSupply n x s) := by
  unfold setSupply
  dsimp only
  split <;> rename_i h
  · exact ⟨h, rfl, rfl, rfl, rfl, fun _ _ => rfl⟩
  · refine ⟨by simp, by simp, by simp, by simp, ?_, fun m hm => by simp [hm]⟩
    ext1 <;> simp
    rw [queuePartHalf_notice]
    simp

/-! ### The end of a step after other changes -/

/-- A step that ends after changes that left its station's context, the engine, the time and Part Control alone. -/
theorem endStep_after {s t : State} {n : StationId} {st : InFlight} (hs : (s.ctx n).step = some st)
    (hc : t.ctx n = s.ctx n) (he : t.engine = s.engine) (ht : t.time = s.time) (hp : t.ctl = s.ctl) (code : Code)
    (result : List Byte) :
    StepEnds n st code result s (endStep n code result t) ∧ OnlyStationEngine n t (endStep n code result t) ∧
    (endStep n code result t).st n = { t.st n with ctx := (endStep n code result t).ctx n } := by
  have h := endStep_ends (s := t) (n := n) (st := st) (by rw [hc]; exact hs) code result
  have hn : t.now = s.now := by simp only [State.now, ht]
  refine ⟨⟨?_, ?_⟩, h.2⟩
  · rw [h.1.1]; simp only [endedCtx, endBytes, hc, he, hn]
  · have hb : endBytes t n st code result = endBytes s n st code result := by
      unfold endBytes; rw [hc, hn]
    have hw : outcomeWrite t n (endBytes s n st code result) = outcomeWrite s n (endBytes s n st code result) := by
      unfold outcomeWrite; rw [hc]
    have ho : ∀ r, engineOffered t r = engineOffered s r := fun r => by unfold engineOffered; rw [he, hp]
    rw [h.1.2, hb, hw, ho, he]

/-! ### A station with no step in flight

What acts on other stations, or ends steps, leaves the context of a station with no step in flight alone. -/

theorem endStep_keeps {s : State} {m : StationId} (h : (s.ctx m).step = none) (n : StationId) (code : Code)
    (result : List Byte) : (endStep n code result s).ctx m = s.ctx m := by
  by_cases e : m = n
  · subst e; rw [endStep_none h]
  · exact congrArg Station.ctx (endStep_st_ne s e code result)

theorem arbitrateUnit_keeps {s : State} {m : StationId} (h : (s.ctx m).step = none) (u : UnitId) :
    (arbitrateUnit s u).ctx m = s.ctx m := by
  unfold arbitrateUnit
  split
  · split
    · rfl
    · rename_i e rest _
      exact endStep_keeps (s := bindUnit u e.station e.slot e.arm { s with waitList := rest }) h _ _ _
  · rfl

theorem arbitrate_keeps {s : State} {m : StationId} (h : (s.ctx m).step = none) : (arbitrate s).ctx m = s.ctx m := by
  have hf : ∀ (l : List UnitId) (t : State), (t.ctx m).step = none → (l.foldl arbitrateUnit t).ctx m = t.ctx m := by
    intro l
    induction l with
    | nil => intro t _; rfl
    | cons a l ih =>
      intro t ht
      have e := arbitrateUnit_keeps ht a
      rw [List.foldl_cons, ih _ (by rw [e]; exact ht), e]
  exact hf _ s h

@[simp] theorem setChan_ctx (n m : StationId) (c : ChannelId) (x : Channel) (s : State) :
    (setChan n c x s).ctx m = s.ctx m := by
  by_cases e : m = n
  · subst e; exact (setChan_spec m c x s).2.2.1
  · exact congrArg Station.ctx ((setChan_spec n c x s).2.1.1.2 m e)

@[simp] theorem liftAll_ctx (n m : StationId) (s : State) : (liftAll n s).ctx m = s.ctx m := by
  unfold liftAll liftChan
  exact foldl_keeps (fun t => t.ctx m) (fun t c => setChan_ctx n m c _ t) _ s

@[simp] theorem startPress_ctx (n m : StationId) (c : ChannelId) (delay width : Nat) (att : Bool) (s : State) :
    (startPress n c delay width att s).ctx m = s.ctx m := setChan_ctx ..

theorem releaseStation_keeps {s : State} {m : StationId} (h : (s.ctx m).step = none) (g : Half) (k : Nat) (a : Arrival) :
    (releaseStation g k s a).ctx m = s.ctx m := by
  have e : (startUnits a.station .release s.now (releasePulse a s).1).ctx m = s.ctx m := by
    unfold startUnits releasePulse
    split
    · rfl
    · split
      · exact startPress_ctx ..
      all_goals rfl
  unfold releaseStation
  dsimp only
  rw [endStep_keeps (by rw [e]; exact h), e]

theorem releaseRound_keeps {s : State} {m : StationId} (h : (s.ctx m).step = none) (k : CohortId) :
    (releaseRound k s).ctx m = s.ctx m := by
  have hf : ∀ (l : List Arrival) (t : State), (t.ctx m).step = none →
      (l.foldl (releaseStation (s.cohort k).generation (s.cohort k).arrived.length) t).ctx m = t.ctx m := by
    intro l
    induction l with
    | nil => intro t _; rfl
    | cons a l ih =>
      intro t ht
      have e := releaseStation_keeps ht (s.cohort k).generation (s.cohort k).arrived.length a
      rw [List.foldl_cons, ih _ (by rw [e]; exact ht), e]
  exact hf _ s h

@[simp] theorem judgeLine_ctx (l : Line) (m : StationId) (s : State) : (judgeLine l s).ctx m = s.ctx m :=
  congrArg Station.ctx (st_congr (judgeLine_stations l s) m)

theorem settleCohort_keeps {s : State} {m : StationId} (h : (s.ctx m).step = none) (k : CohortId) :
    (settleCohort k s).ctx m = s.ctx m := by
  unfold settleCohort
  dsimp only
  rw [judgeLine_ctx, judgeLine_ctx]
  split
  · rfl
  · split
    · split
      · exact releaseRound_keeps h k
      · rfl
    · rfl

theorem leaveLive_keeps {s : State} {m : StationId} (h : (s.ctx m).step = none) (n : StationId) :
    (leaveLive n s).ctx m = s.ctx m := by
  unfold leaveLive
  split
  · rfl
  · split
    · exact settleCohort_keeps (s := s.setCohort _ _) h _
    · rfl

theorem joinLive_keeps {s : State} {m : StationId} (h : (s.ctx m).step = none) (n : StationId) :
    (joinLive n s).ctx m = s.ctx m := by
  unfold joinLive
  split
  · rfl
  · exact settleCohort_keeps (s := s.setCohort _ _) h _

@[simp] theorem judgeLine_cohort (l : Line) (k : CohortId) (s : State) : (judgeLine l s).cohort k = s.cohort k :=
  congrArg (fun v => v.get k) (judgeLine_cohorts l s)

theorem releaseRound_cohort (k : CohortId) (s : State) : (releaseRound k s).cohort k = (s.cohort k).released := by
  have h : (((s.cohort k).arrived.foldl (releaseStation (s.cohort k).generation (s.cohort k).arrived.length) s).cohort k)
      = s.cohort k :=
    congrArg (fun v => v.get k) (foldl_keeps State.cohorts (fun t a => by unfold releaseStation; simp) _ s)
  unfold releaseRound
  dsimp only
  rw [cohort_setCohort, if_pos rfl, h]
  rfl

/-- What the examination of a round does to its cohort's sets: the live set stands, and nobody arrives. -/
theorem settleCohort_sets (k : CohortId) (s : State) :
    ((settleCohort k s).cohort k).live = (s.cohort k).live ∧
      ∀ a ∈ ((settleCohort k s).cohort k).arrived, a ∈ (s.cohort k).arrived := by
  unfold settleCohort
  dsimp only
  rw [judgeLine_cohort, judgeLine_cohort]
  split
  · simp
  · split
    · split
      · rw [releaseRound_cohort]
        exact ⟨rfl, fun a h => nomatch h⟩
      · exact ⟨rfl, fun a h => h⟩
    · simp

/-- A station without a step in flight that leaves its cohort stands in neither of its sets (R155). -/
theorem leaveLive_outOfCohort {s : State} {n : StationId} (h : (s.ctx n).step = none) : OutOfCohort n (leaveLive n s) := by
  intro k hk
  rw [leaveLive_keeps h] at hk
  unfold leaveLive
  rw [hk]
  dsimp only
  split
  · obtain ⟨h1, h2⟩ := settleCohort_sets k (s.setCohort k ((s.cohort k).dropLive n))
    rw [cohort_setCohort, if_pos rfl] at h1 h2
    refine ⟨by rw [h1]; simp [Cohort.dropLive], fun a ha => ?_⟩
    have := h2 a ha
    simp only [Cohort.dropLive, Cohort.dropArrived, List.mem_filter, bne_iff_ne] at this
    exact this.2
  · rename_i hn
    simp only [Cohort.holds, Bool.or_eq_true, List.any_eq_true, beq_iff_eq, not_or, not_exists, not_and,
      List.contains_iff_mem] at hn
    exact ⟨hn.1, hn.2⟩

/-- A station that joins its cohort stands in its live set (R145, R156). -/
theorem joinLive_mem {s : State} {n : StationId} {k : CohortId} (h : (s.ctx n).cohort = some k) :
    n ∈ ((joinLive n s).cohort k).live := by
  unfold joinLive
  rw [h]
  dsimp only
  rw [(settleCohort_sets k _).1, cohort_setCohort, if_pos rfl]
  simp

/-! ### Posting (R28) -/

/-- The part-half write that ends a posting either waits for room, the station staying in POSTING, or the class is
applied. -/
theorem reportPosting_cases (n : StationId) (code : Code) (d : Disposition) (s : State) :
    (s.engine.inRoom (.partHalf n) = true → reportPosting n code d s = s.setCtx n { s.ctx n with posting := .reported code d }) ∧
    (s.engine.inRoom (.partHalf n) = false → reportPosting n code d s = applyClass n code d s) := by
  unfold reportPosting
  exact ⟨fun h => if_pos h, fun h => if_neg (by rw [h]; decide)⟩

/-! ### HALTED and IDLE (R31, R37) -/

/-- The context of a station that has entered HALTED. -/
theorem enterHalted_ctx (n : StationId) (r : HaltReason) (s : State) :
    (enterHalted n r s).ctx n = { s.ctx n with
      state := .halted, halt := r, deadline := none, skipDebt := 0, badMark := false, step := none, posting := .none,
      backlog := none, pendingHalt := none } := by
  unfold enterHalted
  dsimp only
  have h1 : ∀ t : State, (t.ctx n).step = none →
      (leaveLive n (arbitrate (abandonUnits n (liftAll n t)))).ctx n = t.ctx n := by
    intro t ht
    have e1 : (abandonUnits n (liftAll n t)).ctx n = t.ctx n :=
      (congrArg Station.ctx (st_congr (abandonUnits_stations n (liftAll n t)) n)).trans (liftAll_ctx n n t)
    generalize abandonUnits n (liftAll n t) = a at e1 ⊢
    have e2 : (arbitrate a).ctx n = a.ctx n := arbitrate_keeps (s := a) (by rw [e1]; exact ht)
    have e3 := leaveLive_keeps (s := arbitrate a) (m := n) (by rw [e2, e1]; exact ht) n
    rw [e3, e2, e1]
  rw [queuePartHalf_ctx, setAttention_ctx, h1, ctx_setCtx]
  rw [ctx_setCtx]

/-- The context of a station that has arrived in IDLE. -/
theorem arriveIdle_ctx (n : StationId) (s : State) :
    (arriveIdle n s).ctx n = { s.ctx n with
      state := .idle, halt := if (s.ctx n).state = .halted then (s.ctx n).halt else .none, deadline := none,
      skipDebt := 0, badMark := false, step := none, posting := .none, backlog := none, pendingHalt := none,
      disabling := false } := by
  unfold arriveIdle
  rw [queuePartHalf_ctx, ctx_setCtx]

/-! ### Lines (R157) -/

/-- A line that enters a drive state; the other line stands. -/
theorem setDrive_spec (l : Line) (d : Drive) (s : State) :
    ((setDrive l d s).line l).drive = d ∧ ((setDrive l d s).line l).others = (s.line l).others ∧
    ((setDrive l d s).line l).hold = (if d = .hold then some 1250 else none) ∧
    ∀ h, h ≠ l → (setDrive l d s).line h = s.line h := by
  unfold setDrive
  refine ⟨?_, ?_, ?_, fun h hh => ?_⟩ <;> rw [line_setLine]
  · rw [if_pos rfl]
  · rw [if_pos rfl]
  · rw [if_pos rfl]
    rfl
  · rw [if_neg hh]

/-! ### The input filters (R56, R57, R58) -/

/-- The filter times are those of Safety.lean. -/
theorem filterPeriods_eq (v : Settings) (p : FilteredPin) : v.filterPeriods p = filterTime v p := by
  cases p
  · exact Nat.mul_comm _ _
  · exact Nat.mul_comm _ _
  · rfl
  · show 10 * v.tripFilter * 25 = 250 * v.tripFilter
    omega

/-- All that a level does to a filter. -/
theorem sense_eq (s : State) (f : Filter) (level : Bool) (time : Nat) :
    s.sense f level time = filterLevel f s.time.firstPeriod level time := by
  unfold State.sense filterLevel Filter.settled Filter.input Filter.candidate
  split
  · rfl
  · rcases f with ⟨raw, acc, _ | _ | k⟩ <;> simp

/-- All that an acceptance does to a filter. -/
theorem accept_eq (f : Filter) (time : Nat) : f.accept time = filterAccepted f time := rfl

/-! ### Requests and endings of a station -/

/-- In ACTIVE a fetch read is offered as any request of the station is. -/
theorem offerFetch_active {s : State} (h : s.ctl.state = .active) (n : StationId) :
    offerFetch n s = stationOffer n .fetch s := by
  have h' : admits s.ctl.state (.fetch n) = true := by rw [h]; rfl
  unfold offerFetch
  rw [if_pos (Or.inr h')]

/-- A station that has kept no request offers none. -/
theorem offerBacklog_none {s : State} {n : StationId} (h : (s.ctx n).backlog = none) : offerBacklog n s = s := by
  unfold offerBacklog
  rw [h]

/-- A step ended from outside ends after its block's part. -/
theorem cutFromOutside_some {s : State} {n : StationId} {st : InFlight} (h : (s.ctx n).step = some st) (code : Code) :
    cutFromOutside n code s = endStep n code (outsideResult s n st code) (cutBlock n st s) := by
  unfold cutFromOutside
  rw [h]

/-- With no step in flight nothing ends from outside. -/
theorem cutFromOutside_none {s : State} {n : StationId} (h : (s.ctx n).step = none) (code : Code) :
    cutFromOutside n code s = s := by
  unfold cutFromOutside
  rw [h]

end Sys2Proof.Laws
end

