-- ==== Sys2Proof/Laws/Records.lean ====
section
/-! SUPPORT. What the readers of a request half answer, one lemma a field, in the words of Safety.lean. -/

namespace Sys2Proof.Laws

open Sys2Proof.Machine

/-! ### Fields -/

/-- A disposition is read exactly where the field passes its check. -/
theorem dispositionOf_isSome_iff (bs : List Byte) :
    (dispositionOf (byteAt bs 1)).isSome = true ↔ DispositionPasses bs := by
  unfold dispositionOf DispositionPasses natAt
  generalize (byteAt bs 1).toNat = n
  have h : n / 4 % 4 < 4 := Nat.mod_lt _ (by decide)
  generalize n / 4 % 4 = k at *
  match k, h with
  | 0, _ => simp
  | 1, _ => simp
  | 2, _ =>
    by_cases h : n / 16 = 0
    · simp [h]
    · simp [h]
      omega
  | 3, _ => simp

theorem channelOf_iff (bs : List Byte) (i : Nat) (c : ChannelId) :
    channelOf (byteAt bs i) = some c ↔ natAt bs i = c.1 := by
  unfold natAt
  generalize byteAt bs i = b
  unfold channelOf
  split <;> simp [Fin.ext_iff]
  omega

theorem slotOf_iff (bs : List Byte) (i : Nat) (c : SlotId) : slotOf (byteAt bs i) = some c ↔ natAt bs i = c.1 := by
  unfold natAt
  generalize byteAt bs i = b
  unfold slotOf
  split <;> simp [Fin.ext_iff]
  omega

theorem channelOrAll_iff (bs : List Byte) (i : Nat) (c : Option ChannelId) :
    channelOrAll (byteAt bs i) = some c ↔ natAt bs i = channelCode c := by
  have hc := fun c => channelOf_iff bs i c
  unfold natAt at *
  generalize byteAt bs i = b at *
  unfold channelOrAll
  split
  · rename_i h
    subst h
    cases c <;> simp [channelCode]
    omega
  · rename_i h
    have h' : b.toNat ≠ 255 := fun e => h (BitVec.eq_of_toNat_eq (by simpa using e))
    cases c with
    | none => simp [channelCode, h']
    | some c => simp [channelCode, hc]

theorem signalOf_iff (k : Nat) (x : Signal) : signalOf k = some x ↔ x.code = k := by
  unfold signalOf
  rcases x with _ | _ | _ | ⟨c, hc⟩ | _ | _
  case act =>
    have : c = 0 ∨ c = 1 ∨ c = 2 ∨ c = 3 := by omega
    rcases this with rfl | rfl | rfl | rfl <;> split <;> simp_all [Signal.code, eq_comm]
  all_goals split <;> simp_all [Signal.code, eq_comm]

theorem kindOf_iff (k : Nat) (x : MeasKind) : kindOf k = some x ↔ x.code = k := by
  unfold kindOf
  split <;> cases x <;> simp_all [MeasKind.code, eq_comm]

theorem startOf_iff (k : Nat) (x : StartCond) : startOf k = some x ↔ x.code = k := by
  unfold startOf
  split <;> cases x <;> simp_all [StartCond.code, eq_comm]

theorem edgeOf_iff (k : Nat) (x : EdgeCode) : edgeOf k = some x ↔ x.code = k := by
  unfold edgeOf
  split <;> cases x <;> simp_all [EdgeCode.code, eq_comm]

theorem gatingOf_iff (k : Nat) (x : Gating) : gatingOf k = some x ↔ x.code = k := by
  unfold gatingOf
  split <;> cases x <;> simp_all [Gating.code, eq_comm]

theorem barrierLineOf_iff (k : Nat) (x : Option Line) : barrierLineOf k = some x ↔ k = lineCode x := by
  unfold barrierLineOf
  split <;> (try (rcases x with _ | _ | _ <;> simp [lineCode] <;> omega))

/-! ### Parameters of a kind -/

/-- The settings of an ARM are read exactly where they lie in their ranges and R124 does not refuse them. -/
theorem armOf_iff (bs : List Byte) (hasCohort : Bool) (slot : SlotId) (a : ArmSettings) :
    armOf bs hasCohort = some (slot, a) ↔ natAt bs 6 = slot.1 ∧ ArmGiven bs hasCohort a := by
  simp only [armOf, Option.bind_eq_bind, Option.bind_eq_some_iff, slotOf_iff, kindOf_iff, startOf_iff, signalOf_iff,
    edgeOf_iff, gatingOf_iff]
  constructor
  · rintro ⟨sl, h1, k, h2, st, h3, x, h4, y, h5, xe, h6, ye, h7, g, h8, h⟩
    split at h
    · rename_i hr
      simp only [Option.some.injEq, Prod.mk.injEq] at h
      obtain ⟨rfl, rfl⟩ := h
      refine ⟨h1, ?_⟩
      simp [armAllowed] at hr
      simp [ArmGiven, *]
      grind
    · simp at h
  · rintro ⟨h1, h⟩
    obtain ⟨k, st, x, y, xe, ye, g, w, gt⟩ := a
    simp [ArmGiven] at h
    refine ⟨slot, h1, k, h.1, st, h.2.1, x, h.2.2.1, y, h.2.2.2.1, xe, h.2.2.2.2.1, ye, h.2.2.2.2.2.1, g,
      h.2.2.2.2.2.2.1, ?_⟩
    have : armAllowed { kind := k, start := st, x := x, y := y, xEdge := xe, yEdge := ye, gating := g, window := w, gate := gt }
        hasCohort = true := by
      simp [armAllowed]
      grind
    grind

/-- The settings of a SETUP are read exactly where they lie in their ranges. -/
theorem setupOf_iff (bs : List Byte) (v : Settings) : setupOf bs = some v ↔ SetupGiven bs v := by
  obtain ⟨⟩ := v
  simp only [setupOf, SetupGiven]
  split
  · rename_i h
    simp only [Option.some.injEq, Settings.mk.injEq]
    constructor
    · rintro ⟨rfl, rfl, rfl, rfl, rfl, rfl, rfl, rfl, rfl, rfl, rfl, rfl⟩
      have : natAt bs 13 = 0 ∨ natAt bs 13 = 1 := by omega
      have h17 : (BitVec.ofNat 4 (natAt bs 17)).toNat = natAt bs 17 := by
        simp
        omega
      rcases this with e | e <;> simp [e, h17] <;> omega
    · intro g
      obtain ⟨h1, _, _, h2, _, h3, _, _, h4, _, _, h5, _, _, h6, _, _, h7, h8, _, _, h9, h10, h11, h12, _⟩ := g
      refine ⟨h1.symm, h2.symm, h3.symm, h4.symm, h5.symm, h6.symm, ?_, h8.symm, h9.symm, h10.symm, ?_, h12.symm⟩
      · rw [h7]
        rename Bool => short
        cases short <;> rfl
      · apply BitVec.eq_of_toNat_eq
        rw [h11]
        simp
        omega
  · rename_i h
    constructor
    · simp
    · intro g
      exfalso
      apply h
      obtain ⟨h1, _, _, h2, _, h3, _, _, h4, _, _, h5, _, _, h6, _, _, h7, h8, _, _, h9, h10, h11, h12, _⟩ := g
      have : natAt bs 13 ≤ 1 := by
        rw [h7]
        exact Bool.toNat_le _
      have : natAt bs 17 < 16 := by
        rw [← h11]
        exact BitVec.isLt _
      omega

end Sys2Proof.Laws
end

