-- ==== Sys2Proof/Laws/Requests.lean ====
section
/-! SUPPORT. What an offer leaves waiting, what the queuing of a part-half write does to the engine, and one REFCLK period of
filters, lines and bit timers, a level change of a probe line, and what the writer of the Notice Block awaits, in the words of Safety.lean. -/

namespace Sys2Proof.Laws

open Sys2Proof.Machine

/-! ### Requests that wait (R165, R166) -/

/-- In ACTIVE and QUIESCING every write is taken. -/
theorem admits_write {s : State} (h : TakesWrites s) {k : ReqKind} (hk : k.isRead = false) :
    admits s.ctl.state k = true := by
  rcases h with h | h <;> rw [h] <;> simp [admits, hk]

/-- An offered request that the engine state allows waits in the queue or for room. -/
theorem offer_waits {r : Request} {s : State} (h : admits s.ctl.state r.kind = true) : RequestWaits r (offer r s) := by
  unfold RequestWaits
  rw [offer_engine]
  unfold engineOffered
  rw [if_pos h]
  split <;> simp

/-- An offer removes no entry of the queue. -/
theorem offer_queue_mem {r : Request} {s : State} {e : Entry} (h : e ∈ s.engine.queue) : e ∈ (offer r s).engine.queue := by
  rw [offer_engine]
  unfold engineOffered
  split
  · split
    · exact List.mem_append_left _ h
    · exact h
  · exact h

/-- An offer removes no request that waits for room. -/
theorem offer_room_mem {r q : Request} {s : State} (h : q ∈ s.engine.room) : q ∈ (offer r s).engine.room := by
  rw [offer_engine]
  unfold engineOffered
  split
  · split
    · exact h
    · exact List.mem_append_left _ h
  · exact h

/-- A request that waits still waits after an offer. -/
theorem requestWaits_offer {r q : Request} {s : State} (h : RequestWaits q s) : RequestWaits q (offer r s) :=
  h.imp offer_queue_mem offer_room_mem

/-- The held updates stand at an offer. -/
theorem offer_held (r : Request) (s : State) : (offer r s).engine.held = s.engine.held := by
  rw [offer_engine]
  unfold engineOffered
  (repeat' split) <;> rfl

/-- A station that offers its outcome write has offered it, or keeps it. -/
theorem stationOffer_outcome (n : StationId) (bytes : List Byte) (s : State) :
    OutcomeOffered n bytes (stationOffer n (.outcome bytes) s) := by
  intro h
  unfold stationOffer at h ⊢
  split
  · left
    simp
  · rename_i hb
    rw [if_neg hb] at h
    right
    have key : outcomeWrite (offer (stationRequest s n (.outcome bytes)) (s.setCtx n { s.ctx n with backlog := none })) n bytes =
        stationRequest s n (.outcome bytes) := by
      simp [outcomeWrite, stationRequest, Context.recordAddr]
    rw [key]
    exact offer_waits (admits_write (by simpa [TakesWrites] using h) rfl)

/-- A station that offers its fetch read in ACTIVE has offered it, or keeps it. -/
theorem stationOffer_fetch (n : StationId) {s : State} (h : s.ctl.state = .active) :
    FetchOffered n (stationOffer n .fetch s) := by
  unfold stationOffer
  split
  · left
    simp
  · right
    have key : fetchRead (offer (stationRequest s n .fetch) (s.setCtx n { s.ctx n with backlog := none })) n =
        stationRequest s n .fetch := by
      simp [fetchRead, stationRequest, Context.recordAddr]
    rw [key]
    exact offer_waits (by simp [h, admits])

/-! ### The part-half write (R168) -/

/-- In CONFIG and FAULTED no part-half write is queued. -/
theorem queuePartHalf_off {s : State} (h : ¬TakesWrites s) (n : StationId) : queuePartHalf n s = s := if_neg h

/-- What the queuing of a part-half write does in ACTIVE and QUIESCING. -/
theorem queuePartHalf_on {s : State} (h : TakesWrites s) (n : StationId) :
    queuePartHalf n s =
      if s.engine.inRoom (.partHalf n) then
        { s with engine := { s.engine with room := s.engine.room.map (replaceBytes n (partHalfRequest s n).bytes) } }
      else if s.engine.inQueue (.partHalf n) then
        if s.engine.outcomeBehind n then
          { s with engine := { s.engine with held := s.engine.held.set n.1 (some (partHalfRequest s n).bytes) n.2 } }
        else
          { s with engine := { s.engine with
            queue := s.engine.queue.map fun e => { e with req := replaceBytes n (partHalfRequest s n).bytes e.req } } }
      else offer (partHalfRequest s n) s := if_pos h

/-- All that the queuing of a part-half write does to the engine. -/
theorem queuePartHalf_updates (n : StationId) (s : State) :
    PartHalfUpdates n (partHalfBytes (s.st n) s.now) s (queuePartHalf n s) := by
  refine ⟨fun h => ?_, fun h hr => ?_, fun h hr => ⟨fun hq => ?_, fun before e after hq he ho => ?_⟩⟩
  · rw [queuePartHalf_off h]
  · have hin : s.engine.inRoom (.partHalf n) = true := by
      obtain ⟨r, hr, hk⟩ := hr
      exact List.any_eq_true.mpr ⟨r, hr, by simp [hk]⟩
    rw [queuePartHalf_on h, if_pos hin]
    rfl
  all_goals
    have hin : ¬s.engine.inRoom (.partHalf n) = true := by
      intro hin
      obtain ⟨r, hm, hk⟩ := List.any_eq_true.mp hin
      exact hr r hm (by simpa using hk)
  · have hq' : ¬s.engine.inQueue (.partHalf n) = true := by
      intro hin
      obtain ⟨r, hm, hk⟩ := List.any_eq_true.mp hin
      exact hq r hm (by simpa using hk)
    rw [queuePartHalf_on h, if_neg hin, if_neg hq', offer_engine]
    rfl
  · have hq' : s.engine.inQueue (.partHalf n) = true :=
      List.any_eq_true.mpr ⟨e, by rw [hq]; simp, by simp [he]⟩
    have hb : ∀ x ∈ before, ¬x.req.kind = .partHalf n := fun x hx => ho x (List.mem_append_left _ hx)
    have ha : ∀ x ∈ after, ¬x.req.kind = .partHalf n := fun x hx => ho x (List.mem_append_right _ hx)
    have hd : (s.engine.queue.dropWhile fun x => x.req.kind != .partHalf n) = e :: after := by
      rw [hq, List.dropWhile_append_of_pos fun x hx => by simpa using hb x hx, List.dropWhile_cons_of_neg (by simp [he])]
    have hout : s.engine.outcomeBehind n = after.any fun x => x.req.kind == .outcome n := by
      unfold Engine.outcomeBehind
      rw [hd, List.any_cons]
      simp [he]
    have same : ∀ (l : List Entry) (bytes : List Byte), (∀ x ∈ l, ¬x.req.kind = .partHalf n) →
        (l.map fun x => ({ x with req := replaceBytes n bytes x.req } : Entry)) = l := by
      intro l bytes hl
      exact (List.map_congr_left fun x hx => by
        show ({ x with req := replaceBytes n bytes x.req } : Entry) = x
        unfold replaceBytes
        rw [if_neg (hl x hx)]).trans (List.map_id _)
    rw [queuePartHalf_on h, if_neg hin, if_pos hq', hout]
    refine ⟨fun hno => ?_, fun ⟨x, hx, hk⟩ => ?_⟩
    · have hany : ¬(after.any fun x => x.req.kind == .outcome n) = true := by
        intro hany
        obtain ⟨x, hx, hk⟩ := List.any_eq_true.mp hany
        exact hno x hx (by simpa using hk)
      rw [if_neg hany]
      dsimp only
      rw [hq, List.map_append, List.map_cons, same before _ hb, same after _ ha]
      simp [replaceBytes, he, partHalfRequest]
    · rw [if_pos (List.any_eq_true.mpr ⟨x, hx, by simp [hk]⟩)]
      rfl

/-- A queued part-half write stands in the queue, waits for room, or is held, with the bytes of the moment. -/
theorem queuePartHalf_reports (n : StationId) (s : State) :
    PartHalfReports n (fun bytes => bytes = partHalfBytes (s.st n) s.now) (queuePartHalf n s) := by
  intro h
  have h' : TakesWrites s := by simpa [TakesWrites] using h
  rw [queuePartHalf_on h']
  split
  · rename_i hin
    obtain ⟨r, hr, hk⟩ := List.any_eq_true.mp hin
    have hk : r.kind = .partHalf n := by simpa using hk
    refine .inr (.inr ⟨replaceBytes n (partHalfRequest s n).bytes r, List.mem_map_of_mem hr, ?_, ?_⟩) <;>
      simp [replaceBytes, hk, partHalfRequest]
  · split
    · rename_i hin
      obtain ⟨x, hx, hk⟩ := List.any_eq_true.mp hin
      have hk : x.req.kind = .partHalf n := by simpa using hk
      split
      · exact .inl ⟨_, Vector.getElem_set_self n.2, rfl⟩
      · refine .inr (.inl ⟨{ x with req := replaceBytes n (partHalfRequest s n).bytes x.req }, List.mem_map_of_mem hx, ?_, ?_⟩) <;>
          simp [replaceBytes, hk, partHalfRequest]
    · rcases offer_waits (admits_write h' (k := (partHalfRequest s n).kind) rfl) with hw | hw
      · exact .inr (.inl ⟨_, hw, rfl, rfl⟩)
      · exact .inr (.inr ⟨_, hw, rfl, rfl⟩)

/-- An offer keeps what stands queued, waits or is held for a station. -/
theorem partHalfQueued_offer {n : StationId} {P : List Byte → Prop} {s : State} (r : Request)
    (h : PartHalfQueued n P s) : PartHalfQueued n P (offer r s) := by
  rcases h with ⟨b, hb, hp⟩ | ⟨e, he, hk, hp⟩ | ⟨q, hq, hk, hp⟩
  · exact .inl ⟨b, by rw [offer_held]; exact hb, hp⟩
  · exact .inr (.inl ⟨e, offer_queue_mem he, hk, hp⟩)
  · exact .inr (.inr ⟨q, offer_room_mem hq, hk, hp⟩)

/-! ### The updates the message waits for (R181) -/

/-- An offered part-half write leaves the writer's list when it enters the queue, and no other station does. -/
theorem offer_awaitsUntilTaken {n : StationId} {r : Request} (s : State) (hr : r.kind = .partHalf n) :
    AwaitsUntilTaken n s (offer r s) := by
  intro m
  unfold offer
  split
  · split
    · simp [take, hr]
    · simp
  · simp

/-- The queuing of a part-half write takes its station from the writer's list when the write enters the queue, and no other. -/
theorem queuePartHalf_awaitsUntilTaken (n : StationId) (s : State) : AwaitsUntilTaken n s (queuePartHalf n s) := by
  intro m
  unfold queuePartHalf
  split
  · dsimp only
    split
    · simp
    · split
      · split <;> simp
      · exact offer_awaitsUntilTaken s rfl m
  · simp

/-- A refill takes from the writer's list the station whose part-half write comes from the head of the room wait list. -/
theorem refill_awaitsRefilled {s : State} (h : s.engine.queue.length < 16 ∨ s.engine.room = []) :
    AwaitsRefilled s (refill s) := by
  intro m
  unfold refill
  split
  · rename_i hr
    simp [hr]
  · rename_i r rest hr
    have h : s.engine.queue.length < Config.queueRoom := by
      rcases h with h | h
      · exact h
      · rw [hr] at h
        simp at h
    rw [if_pos h, hr]
    cases hk : r.kind with
    | partHalf k =>
      simp only [take, hk, List.mem_filter, bne_iff_ne, List.head?_cons, Option.some.injEq, forall_eq', ne_eq, ReqKind.partHalf.injEq]
      exact and_congr_right fun _ => not_congr eq_comm
    | _ => simp [take, hk]

/-- A send that begins awaits exactly the stations with a held update. -/
theorem noticeKick_awaitsHeld {s : State} (h : s.notice.pending = true ∧ s.notice.writer = .idle ∧ sendAllowed s.ctl = true) :
    AwaitsHeld (noticeKick s) := by
  intro m
  unfold noticeKick
  rw [if_pos h]
  dsimp only
  rw [offer_held]
  unfold offer
  split
  · split <;> simp [take]
  · simp

/-! ### One REFCLK period (R52, R60) -/

/-- A filter's period is that of Safety.lean. -/
theorem filterPeriod_eq (f : Filter) : f.period = filterAged f := rfl

/-- A sync line's period is that of Safety.lean. -/
theorem linePeriod_eq (x : SyncLine) : x.period = lineAged x := rfl

/-- The next sample interval is that of Safety.lean. -/
theorem nextInterval_eq (l : Link) : l.nextInterval = intervalBegun l := by
  unfold Link.nextInterval intervalBegun
  split
  · rename_i h
    rw [if_neg (by omega)]
  · rename_i h
    rw [if_pos (by omega)]

/-- The bit timer runs as Safety.lean says. -/
theorem timing_iff (l : Link) : l.timing = true ↔ BitTimerRuns l := by
  unfold Link.timing BitTimerRuns
  cases h : l.state <;> cases hw : l.wait with
    | none => simp
    | some k => cases k <;> simp

/-! ### The probe line and a step ended from outside -/

/-- A link that sees a change of level notes it and takes it by its state. -/
theorem look_levelTaken (l : Link) (attnMin : Nat) (stamp : Word) (h : l.high ≠ l.mon.high) :
    LevelTaken { l with mon := { high := l.high, age := 0, beganIn := l.state, attnMin := attnMin } }
      (l.look attnMin stamp) := by
  unfold Link.look
  rw [if_neg h]
  refine ⟨?_, ?_, ?_, ?_, ?_⟩
  · intro hs hh
    have hh : l.high = false := hh
    simp_all
  · intro hs hb hh
    have hs : l.state = .receive := hs
    have hb : l.inByte = false := hb
    have hh : l.high = false := hh
    simp [hs, hb, hh, Link.beginByte, Link.beginBit, nextInterval_eq]
  · intro hs hh
    have hh : l.high = false := hh
    simp_all
  · intro hs hh
    have hs : l.state = .recover := hs
    have hh : l.high = true := hh
    simp [hs, hh, Link.beginWait, nextInterval_eq]
  · intro hs hh
    have hh : l.high = true ∨ (l.state ≠ .awaitAnswer ∧ (l.state = .receive → l.inByte = true)) := hh
    cases hk : l.high <;> cases hst : l.state <;> simp_all
    split <;> rfl

/-- The result of a step ended from outside, in the state that has ended it. -/
theorem outsideResult_eq_outsideBytes (s : State) (n : StationId) (st : InFlight) (code : Code) :
    outsideResult s n st code = outsideBytes s s n st code := by
  unfold outsideResult outsideBytes
  cases st.op with
  | query q =>
    cases hh : st.handed <;> cases hl : (s.st n).link.state <;> simp [cutResult, hl, emptyResult, answerResult]
  | supply on => cases on <;> rfl
  | _ => rfl

end Sys2Proof.Laws
end

