-- ==== Sys2Proof/Tests/Slice0.lean ====
section
/-! SUPPORT. Tests of one step each on small states, and for every statement with hypotheses a state that meets them. -/

namespace Sys2Proof.Tests

set_option Elab.async false

open Sys2Proof.Machine

/-! ### Operand checks -/

theorem test_wf_softReset : (Instr.softReset 0x02 1).wellFormed = true ∧ (Instr.softReset 0x01 1).wellFormed = false := by
  decide
theorem test_wf_startRequest :
    (Instr.startRequest 0x01 1).wellFormed = true ∧ (Instr.startRequest 0x00 1).wellFormed = false := by decide
theorem test_wf_quiesce : (Instr.quiesce 0x00 1).wellFormed = true ∧ (Instr.quiesce 0x01 1).wellFormed = false := by decide
theorem test_wf_leaveFaulted :
    (Instr.leaveFaulted 0x00 1).wellFormed = true ∧ (Instr.leaveFaulted 0x00 2).wellFormed = false := by decide
theorem test_wf_syncUseSet :
    (Instr.syncUseSet 0x05 1).wellFormed = true ∧ (Instr.syncUseSet 0x01 1).wellFormed = false := by decide
theorem test_wf_syncUseClear :
    (Instr.syncUseClear 0x05 1).wellFormed = true ∧ (Instr.syncUseClear 0x0D 1).wellFormed = false := by decide
theorem test_wf_sweepPeriod :
    (Instr.sweepPeriod 0x00640000 12).wellFormed = true ∧ (Instr.sweepPeriod 0x00640000 1).wellFormed = false := by decide
theorem test_wf_registerWrite :
    (Instr.registerWrite 3 0 15).wellFormed = true ∧ (Instr.registerWrite 9 0 15).wellFormed = false := by decide

/-- The table gives no row bits, so no word spells a command. -/
theorem test_decode_none : decodeTableWord 32 0x12345678 = none := rfl

/-! ### Small states -/

/-- A part that is ACTIVE with nothing going on. -/
def active : State :=
  { State.reset with
    ctl := { State.reset.ctl with state := .active, run := true, workLo := 0x1000, base := 0x1000 },
    time := { State.reset.time with firstPeriod := false, clock := 0x123 } }

/-- The part in another state. -/
def inState (p : PartState) : State := { active with ctl := { active.ctl with state := p } }

/-- Station 3 with a context. -/
def withCtx (c : Context) : State := active.setCtx 3 c

/-- A step in flight. -/
def flight (op : StepOp) (handed : Bool) : InFlight :=
  { op := op, start := 5, noticeFlag := true, attached := false, disp := .halt, deadline := 0, handed := handed }

/-- A context at a step. -/
def stepCtx (op : StepOp) (handed : Bool) : Context :=
  { Context.initial with state := .running, taken := 1, lastRead := 1, step := some (flight op handed) }

/-- Station 3 has dispatched a step. -/
def handed (op : StepOp) : State := withCtx (stepCtx op true)

/-- Station 3's step has been taken by its block, its deadline has expired. -/
def flying (op : StepOp) : State := withCtx { stepCtx op false with deadline := some 0 }

/-- Station 3's link changed. -/
def linked (s : State) (f : Link → Link) : State := s.setLink 3 (f (s.st 3).link)

/-- Station 3's supply block changed. -/
def powered (s : State) (f : Power → Power) : State := s.setPower 3 (f (s.st 3).power)

/-- Channel 1 of station 3 changed. -/
def channeled (s : State) (x : Channel) : State := s.putChan 3 1 x

/-- A context that posts. -/
def postingCtx (p : Posting) : Context := { Context.initial with state := .posting, taken := 1, lastRead := 1, posting := p }

/-- What a command does to a state, judged. -/
def after (i : Instr) (s : State) (p : State → Bool) : Bool :=
  match exec i s with
  | .next t => p t
  | _ => false

theorem handed_step (op : StepOp) : Handed (handed op) 3 (flight op true) op := ⟨rfl, rfl⟩
theorem flying_step (op : StepOp) : Flying (flying op) 3 (flight op false) op := ⟨rfl, rfl⟩

/-! ### The step and the invariants -/

theorem witness_StepTakesFrontCommand : ({ active with pending := [.msTick] } : State).pending = .msTick :: [] := rfl
theorem witness_EmptyQueue_lists :
    ({ active with time := { active.time with tickDue := true } } : State).time.tickDue = true ∧
      (handed (.pause 5)).handedStep 3 = some (flight (.pause 5) true) ∧
      (StepOp.pause 5).command 3 = some (.pause 3) := by decide +kernel
theorem witness_EmptyQueue_period : active.pending = [] ∧ dueEvents active = [] := by decide +kernel
theorem witness_EmptyQueue_due : (handed (.pause 5)).pending = [] ∧ dueEvents (handed (.pause 5)) = [.pause 3] := by
  decide +kernel

theorem witness_EmptyQueue_outside : FromOutside .sendEntry ∧ ¬FromOutside .msTick := ⟨trivial, id⟩
theorem witness_EveryCommand_undue : ¬FromOutside .msTick ∧ .msTick ∉ dueEvents active := ⟨id, by decide +kernel⟩

/-- A part with a command waiting. -/
def commanded : State := { active with pending := [.attentionClear 0 0] }

theorem witness_QueueStaysWithinSixteen : QueueWithinRoom commanded ∧ ∃ t, step commanded = .next t :=
  ⟨Nat.zero_le 16, _, rfl⟩
theorem commanded_ctx : ∀ n, commanded.ctx n = Context.initial := by decide +kernel
theorem witness_TalliesAgree : AllTallied commanded ∧ ∃ t, step commanded = .next t :=
  ⟨fun n => by rw [commanded_ctx n]; exact ⟨rfl, rfl, rfl⟩, _, rfl⟩
theorem witness_LinesFollow : LinesFollowUse commanded ∧ ∃ t, step commanded = .next t :=
  ⟨fun l => by cases l <;> decide, _, rfl⟩
theorem witness_RegistersStayLegal : RegistersLegal commanded ∧ ∃ t, step commanded = .next t :=
  ⟨⟨by decide, by decide, by decide⟩, _, rfl⟩
theorem witness_PartHalfWrites : PartHalvesSingle commanded ∧ ∃ t, step commanded = .next t :=
  ⟨fun _ => Nat.zero_le 1, _, rfl⟩
theorem witness_ClockAdvances : TimeBaseLegal active := ⟨by decide, by decide⟩
/-- Station 3's break has a bit left, and the present bit's last sample interval ends. -/
def bitEnding : State :=
  linked active fun l => { l with
    state := .break, bits := [false, false], sample := 7, left := 1, mon := { l.mon with high := false, beganIn := .break } }

theorem witness_ClockAdvances_link :
    (bitEnding.st 3).link.high = (bitEnding.st 3).link.mon.high ∧ BitTimerRuns (bitEnding.st 3).link ∧
      (bitEnding.st 3).link.left ≤ 1 ∧ ¬BitTimerRuns (active.st 3).link :=
  ⟨by decide +kernel, .inl ⟨.inl rfl, rfl⟩, Nat.le_refl 1, fun h => by
    rcases h with ⟨h, _⟩ | ⟨h, _⟩ | ⟨h, _⟩
    · rcases h with h | h | h <;> exact absurd h (by decide +kernel)
    · exact absurd h (by decide +kernel)
    · exact absurd h (by decide +kernel)⟩
theorem test_refclk :
    ((refclk bitEnding).st 3).link.bits = [false] ∧ ((refclk bitEnding).st 3).link.sample = 0 ∧
      ((refclk bitEnding).st 3).link.left = 27 ∧ ((refclk bitEnding).st 3).link.mon.age = 1 := by decide +kernel
theorem witness_MsTick : ({ active with time := { active.time with tickDue := true } } : State).time.tickDue = true := rfl
theorem test_msTick : after .msTick { flying (.pause 5) with time := { active.time with tickDue := true } }
    (fun t => !t.time.tickDue && (t.ctx 3).deadline == some 0) = true := by decide +kernel

/-! ### Frames on the probe line: the worked frame of the manual -/

theorem witness_TagByte : (0x13 : Nat) < 64 := by decide
theorem test_tagByte : tagByte 0x13 = 0x53 := by decide +kernel
theorem test_checkByte_full : checkByte [0x53, 0x03, 0xC8, 0x7F, 0x91] = 0xCF := by decide +kernel
theorem test_checkByte_short : checkByte [0xC8, 0x7F, 0x91] = 0x26 := by decide +kernel
theorem test_checkByte_answer : checkByte [0x00, 0x02, 0x41, 0x07] = 0xB5 := by decide +kernel

/-- The query of the manual's worked frame. -/
def query : QuerySpec :=
  { expectAnswer := true, rawCheck := false, expectStatus := false, tag := 0x13, payload := [0xC8, 0x7F, 0x91], check := 0,
    status := 0 }

theorem test_queryFrame : queryFrame query false = [0x96, 0x53, 0x03, 0xC8, 0x7F, 0x91, 0xCF] := by decide +kernel

/-! ### Resets and registers -/

theorem witness_SoftReset : (1 : BitVec 4).getLsbD 0 = true ∧ (2 : Word).getLsbD 1 = true := by decide
theorem test_softReset : after (.softReset 2 1) (handed (.pause 5))
    (fun t => t.ctl.state == .config && t.ctl.workLo == 0x1000 && (t.ctx 3).state == .idle) = true := by decide +kernel
theorem test_coldReset : after (.coldReset .hot) (handed (.pause 5))
    (fun t => t.ctl.workLo == 0 && t.time.clock == 0 && (t.ctx 3).state == .idle) = true := by decide +kernel

/-- A part in CONFIG with a WORK_BASE. -/
def config (base : Word) : State := { State.reset with ctl := { State.reset.ctl with workLo := base } }

theorem witness_StartRequest_enters :
    (config 0x1000).ctl.state = .config ∧ (1 : BitVec 4).getLsbD 0 = true ∧ (5 : Word).getLsbD 0 = true ∧
      (5 : Word).getLsbD 1 = false ∧ ((config 0x1000).ctl.workHi ++ (config 0x1000).ctl.workLo).toNat % 4096 = 0 ∧
      (config 0x1000).engine.queue = [] ∧ (config 0x1000).engine.room = [] ∧
      ((config 0x1000).line .a).drive = .off ∧ ((config 0x1000).line .b).drive = .off := by decide +kernel
theorem witness_StartRequest_refuses :
    (config 0x1004).ctl.state = .config ∧ ((config 0x1004).ctl.workHi ++ (config 0x1004).ctl.workLo).toNat % 4096 ≠ 0 := by
  decide +kernel
theorem test_startRequest : after (.startRequest 5 1) (config 0x1000)
    (fun t => t.ctl.state == .active && t.engine.queue.length == 16 && t.engine.room.length == 9 &&
      t.lineA.drive == .pull && t.lineB.drive == .off) = true := by decide +kernel
theorem test_startRequest_refused : after (.startRequest 5 1) (config 0x1004)
    (fun t => t.ctl.state == .config && t.ctl.fault == .badBase && !t.ctl.run) = true := by decide +kernel
theorem witness_Quiesce :
    (handed (.pause 5)).ctl.state = .active ∧ (0 : Word).getLsbD 0 = false ∧ (0 : Word).getLsbD 1 = false ∧
      ((handed (.pause 5)).ctx 3).state ≠ .idle ∧ ((handed (.pause 5)).ctx 3).disabling = false := by decide +kernel
theorem test_quiesce : after (.quiesce 0 1) (handed (.pause 5))
    (fun t => t.ctl.state == .quiescing && (t.ctx 3).state == .posting && (t.ctx 3).disabling) = true := by decide +kernel
theorem witness_FaultedLeaves :
    (inState .faulted).ctl.state = .faulted ∧ writerClear (inState .faulted) = true ∧
      ({ inState .faulted with ctl := { (inState .faulted).ctl with leaving := true } } : State).ctl.leaving = true := by
  decide +kernel
theorem test_leaveFaulted : after (.leaveFaulted 0 1) (inState .faulted) (fun t => t.ctl.state == .config) = true := by
  decide +kernel
theorem test_faultedToConfig :
    after .faultedToConfig { inState .faulted with ctl := { (inState .faulted).ctl with leaving := true } }
      (fun t => t.ctl.state == .config) = true := by decide +kernel
theorem witness_UseFlags :
    active.ctl.state = .active ∧ (5 : Word).getLsbD 0 = true ∧ (5 : Word).getLsbD 1 = false ∧
      (active.line .a).drive = .off ∧ active.releaseCondition .a = false := by decide +kernel
theorem test_syncUseSet : after (.syncUseSet 5 1) active (fun t => t.lineA.drive == .pull && !t.lineA.pin) = true := by
  decide +kernel
theorem test_syncUseClear :
    after (.syncUseClear 1 1) { active with lineA := { active.lineA with drive := .pull } }
      (fun t => t.lineA.drive == .off && t.lineA.pin) = true := by decide +kernel
theorem witness_SweepPeriod :
    active.ctl.state = .active ∧ active.ctl.run = true ∧ LinesFollowUse active ∧ (12 : BitVec 4).getLsbD 0 = false :=
  ⟨rfl, rfl, fun l => by cases l <;> decide, by decide⟩
theorem test_sweepPeriod :
    after (.sweepPeriod 0x00640000 12) active (fun t => t.ctl.period == 100) = true ∧
      after (.sweepPeriod 0 12) active (fun t => t.ctl.period == 1000) = true := by decide +kernel

/-- A part whose sweep timer has ended. -/
def sweepEnded (busy : Bool) : State := { active with sweep := { timer := some 0, pending := false, inFlight := busy } }

theorem witness_Sweep :
    (config 0).ctl.state ≠ .active ∧ (sweepEnded true).ctl.state = .active ∧ (sweepEnded true).sweep.inFlight = true ∧
      (sweepEnded false).sweep.inFlight = false ∧ (sweepEnded false).sweep.timer = some 0 := by decide +kernel
theorem test_sweep : after (.sweep 0 0) (sweepEnded false) (fun t => t.sweep.inFlight && t.engine.inQueue .sweepRead) = true := by
  decide +kernel
theorem test_sweepTimerExpiry : after .sweepTimerExpiry (sweepEnded true) (fun t => t.sweep.pending) = true := by
  decide +kernel
theorem test_startRequest_partHalf : after (.startRequest 5 1) (config 0x1000)
    (fun t => (t.engine.queue.getD 4 { req := partHalfRequest t 0, sent := none }).req == partHalfRequest t 3) = true := by
  decide +kernel
/-- A part in CONFIG whose pending flag is set. -/
def configPending : State := { config 0x1000 with notice := { (config 0x1000).notice with pending := true, attention := 1, mask := 1 } }

theorem witness_StartRequest_sends :
    configPending.notice.pending = true ∧ configPending.notice.writer = .idle ∧
      configPending.releaseCondition .a = false ∧ (controlStored 5 1 configPending.ctl).useFlag .a = true := by decide +kernel
theorem test_startRequest_sends : after (.startRequest 5 1) configPending
    (fun t => t.notice.writer == .sending && t.notice.count == 1 && t.engine.inRoom .noticeBlock &&
      t.lineA.drive == .pull && !t.lineA.pin) = true := by decide +kernel
theorem witness_AttentionWrite : (4 : BitVec 4).getLsbD (23 / 8) = true ∧ (0x00800000 : Word).getLsbD 23 = true := by decide
theorem test_attentionClear :
    after (.attentionClear 0x00800000 4) { active with notice := { active.notice with attention := 0x80800000 } }
      (fun t => t.notice.attention == 0x80000000) = true := by decide +kernel

/-- A part with an attention bit set. -/
def attentive (mask : Word) (writer : WriterState) : State :=
  { active with notice := { active.notice with attention := 1, mask := mask, writer := writer } }

theorem witness_MaskWrite :
    (attentive 0 .idle).notice.writer = .idle ∧ (attentive 0 .idle).ctl.state = .active ∧
      (attentive 0 .holdoff).notice.writer ≠ .idle := by decide +kernel
theorem test_noticeMaskWrite :
    after (.noticeMaskWrite 0xFFFFFFFF 15) (attentive 0 .idle)
      (fun t => t.notice.mask == 0x80FFFFFF && t.notice.writer == .sending && t.notice.count == 1) = true := by
  decide +kernel
/-- An attention bit is set and station 3 has a held part-half update. -/
def attentiveHeld : State :=
  { attentive 0 .idle with engine := { active.engine with held := active.engine.held.set 3 (some [1, 2]) } }

theorem test_noticeMaskWrite_awaitsHeld :
    after (.noticeMaskWrite 1 15) attentiveHeld (fun t => t.notice.awaitHeld == [3] && t.notice.writer == .sending) = true := by
  decide +kernel
theorem witness_RegisterWrites : (config 0).ctl.state = .config ∧ active.ctl.state ≠ .config := by decide +kernel
theorem test_registerWrite :
    after (.registerWrite 3 0x1234 1) active (fun t => t.ctl.holdoff == 0x34) = true ∧
      after (.registerWrite 4 0x1234 15) active (fun t => t.ctl.workLo == 0x1000) = true := by decide +kernel

/-! ### The Memory Link Engine -/

/-- The part with these requests in the queue. -/
def queued (es : List Entry) : State := { active with engine := { active.engine with queue := es } }

/-- An unsent request. -/
def unsent (k : ReqKind) (length : Nat) : Entry := { req := { kind := k, addr := 0x2000, length := length, bytes := [] }, sent := none }

/-- A sent read. -/
def sentRead (k : ReqKind) (length timer : Nat) (got : List Byte) : Entry :=
  { unsent k length with sent := some { tag := 9, timer := timer, got := got } }

theorem witness_SendEntry_none : ∀ e ∈ active.engine.queue, e.sent.isSome = true := by decide +kernel
theorem witness_SendEntry_read :
    (queued [unsent (.fetch 3) 32]).engine.queue = [] ++ unsent (.fetch 3) 32 :: [] ∧
      (unsent (.fetch 3) 32).sent = none ∧ (unsent (.fetch 3) 32).req.kind.isRead = true := by decide +kernel
theorem witness_SendEntry_writes :
    (queued [unsent .noticeBlock 64]).engine.queue = [] ++ unsent .noticeBlock 64 :: [] ∧
      QueueWithinRoom (queued [unsent .noticeBlock 64]) ∧ (queued [unsent .message 0]).engine.room = [] ∧
      (queued [unsent .message 0]).ctl.holdoff ≠ 0 ∧ ((queued [unsent (.outcome 3) 32]).ctx 3).backlog = none :=
  ⟨rfl, (by decide : 1 ≤ 16), rfl, by decide, rfl⟩

/-- A part-half write in the queue with an update held behind it. -/
def heldBehind : State :=
  { active with engine := { active.engine with
    queue := [unsent (.partHalf 3) 32], held := active.engine.held.set 3 (some [1, 2]) } }

theorem witness_SendEntry_held :
    heldBehind.engine.held.get 3 = some [1, 2] ∧ heldBehind.engine.room = [] ∧
      admits heldBehind.ctl.state (.partHalf 3) = true := by decide +kernel
theorem test_sendEntry : after .sendEntry heldBehind
    (fun t => (t.engine.queue.map fun e => e.req.bytes) == [[1, 2]] && (t.engine.held.get 3).isNone) = true := by decide +kernel
theorem test_sendEntry_awaits :
    after .sendEntry { heldBehind with notice := { heldBehind.notice with awaitHeld := [3, 5] } }
      (fun t => t.notice.awaitHeld == [5]) = true ∧
    after .sendEntry
      { queued [unsent .noticeBlock 64] with
        engine := { active.engine with queue := [unsent .noticeBlock 64], room := [(unsent (.partHalf 5) 32).req] },
        notice := { active.notice with awaitHeld := [3, 5] } }
      (fun t => t.notice.awaitHeld == [3]) = true := by decide +kernel
/-- Station 3 has kept a request behind its outcome write, and the room wait list is not empty. -/
def keptBehind (b : Backlog) : State :=
  { queued [unsent (.outcome 3) 32] with engine := { active.engine with
    queue := [unsent (.outcome 3) 32], room := [(unsent (.partHalf 5) 32).req] } }.setCtx 3
    { postingCtx .skipped with backlog := some b }

theorem witness_SendEntry_keptOutcome :
    (keptBehind (.outcome [1])).engine.queue = [] ++ unsent (.outcome 3) 32 :: [] ∧
      ((keptBehind (.outcome [1])).ctx 3).backlog = some (.outcome [1]) ∧
      ((keptBehind .discarded).ctx 3).backlog = some .discarded ∧
      (keptBehind .discarded).engine.queue.length ≤ 16 ∧ (keptBehind .discarded).engine.room ≠ [] ∧
      ∀ r ∈ (keptBehind .discarded).engine.room, r.kind ≠ .fetch 3 ∧ r.kind ≠ .outcome 3 := by decide +kernel
theorem test_sendEntry_keptOutcome :
    after .sendEntry (keptBehind (.outcome [1]))
      (fun t => (t.engine.queue.map fun e => e.req.kind) == [.partHalf 5, .outcome 3] && t.engine.room == []) = true ∧
    after .sendEntry (keptBehind .discarded)
      (fun t => (t.engine.queue.map fun e => e.req.bytes.take 4) == [[], [0xC2, 0, 0, 0]]) = true := by decide +kernel
theorem witness_Completion_extends :
    (queued [sentRead (.fetch 3) 32 5 []]).engine.queue = [] ++ sentRead (.fetch 3) 32 5 [] :: [] ∧
      (∀ x ∈ ([] ++ [] : List Entry), x.hasTag 9 = false) ∧ (0 : Nat) + [(1 : Byte), 2].length < 32 := by decide +kernel
theorem witness_Completion_discarded : ∀ x ∈ active.engine.queue, x.hasTag 9 = false := by decide +kernel

/-- Station 3 is fetching and its read has been sent. -/
def fetching (timer : Nat) (got : List Byte) : State :=
  (queued [sentRead (.fetch 3) 32 timer got]).setCtx 3 { Context.initial with state := .fetching, taken := 1, lastRead := 1 }

/-- Station 3 is being disabled with its fetch read not yet sent. -/
def disabledFetch : State :=
  (queued [{ sentRead (.fetch 3) 32 0 [] with sent := none }]).setCtx 3
    { Context.initial with state := .fetching, taken := 1, lastRead := 1, disabling := true }

theorem test_quiesce_dropsDisabledFetch : after (.quiesce 0 1) disabledFetch
    (fun t => (t.ctx 3).state == .idle && (t.ctx 3).taken == 0 && !t.engine.inQueue (.fetch 3)) = true := by decide +kernel
theorem witness_Quiesce_fetching : after (.quiesce 0 1) (fetching 5 [])
    (fun t => (t.ctx 3).state == .fetching && t.engine.inQueue (.fetch 3)) = true := by decide +kernel

/-- Station 3 fetches its next record, its outcome write not yet sent. -/
def keptFetch (p : PartState) (disabling : Bool) : State :=
  { queued [unsent (.outcome 3) 32] with ctl := (inState p).ctl }.setCtx 3
    { Context.initial with
      state := .fetching, taken := 1, lastRead := 1, backlog := some .fetch, disabling := disabling }

theorem witness_Quiesce_keptFetch : after (.quiesce 0 1) (keptFetch .active false)
    (fun t => (t.ctx 3).state == .fetching && (t.ctx 3).backlog == some .fetch && !t.engine.inQueue (.fetch 3)) = true := by
  decide +kernel
theorem witness_SendEntry_kept :
    ((keptFetch .active false).ctx 3).backlog = some .fetch ∧ (keptFetch .active false).engine.room = [] ∧
      (keptFetch .quiescing true).ctl.state = .quiescing ∧ ((keptFetch .quiescing true).ctx 3).disabling = true := by
  decide +kernel
theorem test_sendEntry_offersKeptFetch : after .sendEntry (keptFetch .active false)
    (fun t => t.engine.inQueue (.fetch 3) && (t.ctx 3).state == .fetching && (t.ctx 3).backlog == none) = true := by
  decide +kernel
theorem test_sendEntry_refusesKeptFetch : after .sendEntry (keptFetch .quiescing true)
    (fun t => !t.engine.inQueue (.fetch 3) && (t.ctx 3).state == .idle && (t.ctx 3).taken == 0) = true := by decide +kernel
theorem witness_SendEntry_message :
    ({ queued [unsent .message 0] with ctl := { active.ctl with holdoff := 0 } } : State).ctl.holdoff = 0 := rfl

/-- The request half of a PAUSE of 5 ms with the tag 0. -/
def pauseRecord : List Byte := [1, 0, 0, 0, 0, 0, 5, 0] ++ List.replicate 24 0

theorem witness_FetchedRecord :
    (fetching 5 []).sentRead 9 = some (sentRead (.fetch 3) 32 5 []) ∧ pauseRecord.length = 32 ∧
      ((fetching 5 []).ctx 3).state = .fetching ∧ ((fetching 5 []).ctx 3).disabling = false ∧
      ((fetching 5 []).ctx 3).pendingHalt = none ∧
      BitVec.ofNat 16 (leNat pauseRecord 2 2) = ((fetching 5 []).ctx 3).retired ∧
      (stepOfRecord pauseRecord false 0).op ≠ .invalid := by decide +kernel
theorem witness_FetchedRecord_badStep :
    (stepOfRecord (List.replicate 32 0) false 0).op = .invalid ∧ BitVec.ofNat 16 (leNat (List.replicate 32 0) 2 2) = 0 ∧
      BitVec.ofNat 16 (leNat (List.replicate 32 1) 2 2) ≠ 0 := by decide +kernel
theorem witness_FetchedRecord_given : DispositionPasses pauseRecord ∧ RecordGives pauseRecord false (.pause 5) := by
  unfold DispositionPasses RecordGives
  decide +kernel
/-- A request half of this kind with this control byte and these parameters. -/
def record (kind control : Byte) (params : List Byte) : List Byte := padTo 32 ([kind, control, 0, 0, 0, 0] ++ params)

theorem test_record_ranges :
    (stepOfRecord (record 0x01 0 [1]) false 0).op = .pause 1 ∧ (stepOfRecord (record 0x01 0 [0]) false 0).op = .invalid ∧
      (stepOfRecord (record 0x04 0 [1]) false 0).op = .invalid ∧
      (stepOfRecord (record 0x21 0 [3, 0, 2, 0, 1]) false 0).op = .tap 3 2 1 0 ∧
      (stepOfRecord (record 0x21 0 [3, 0, 2, 0, 2]) false 0).op = .invalid ∧
      (stepOfRecord (record 0x22 0 [4]) false 0).op = .invalid ∧
      (stepOfRecord (record 0x23 0 [0xFF]) false 0).op = .lift none ∧
      (stepOfRecord (record 0x50 0 [2, 0xFF, 0, 0, 1]) true 0).op = .barrier (some .b) none 0 1 := by decide +kernel
theorem test_record_disposition :
    (stepOfRecord (record 0x01 0x18 [1]) false 0).disp = .skip 1 ∧
      (stepOfRecord (record 0x01 0x08 [1]) false 0).op = .invalid ∧ (stepOfRecord (record 0x01 0x08 [1]) false 0).disp = .halt ∧
      (stepOfRecord (record 0x01 0x0C [1]) false 0).op = .invalid ∧
      (stepOfRecord (record 0x01 0xF4 [1]) false 0).disp = .continue := by decide +kernel
theorem test_record_arm :
    (stepOfRecord (record 0x40 0 [1, 1, 1, 1, 0, 0, 0, 0, 1, 0, 100]) false 0).op =
        .arm 1 { kind := .width, start := .edgeX, x := .sense0, y := .probe, xEdge := .rising, yEdge := .rising,
                 gating := .none, window := 1, gate := 100 } ∧
      (stepOfRecord (record 0x40 0 [1, 1, 0, 1, 0, 0, 0, 0, 1, 0, 100]) false 0).op = .invalid ∧
      (stepOfRecord (record 0x40 0 [1, 1, 1, 1, 0, 2, 0, 0, 1, 0, 100]) false 0).op = .invalid ∧
      (stepOfRecord (record 0x40 0 [1, 2, 1, 1, 0, 0, 0, 0, 1, 0, 0xE9, 3]) false 0).op = .invalid ∧
      (stepOfRecord (record 0x40 0 [1, 0, 3, 1, 0, 0, 0, 0, 1, 0, 100]) false 0).op = .invalid ∧
      (stepOfRecord (record 0x40 0 [1, 0, 3, 1, 0, 0, 0, 0, 1, 0, 100]) true 0).op ≠ .invalid := by decide +kernel
theorem test_readCompletion : after (.readCompletion 9 .success 0 pauseRecord) (fetching 5 [])
    (fun t => (t.ctx 3).state == .running && ((t.ctx 3).step.map InFlight.op) == some (.pause 5)) = true := by decide +kernel
theorem witness_FaultedFetch :
    (fetching 0 []).sentRead 9 = some (sentRead (.fetch 3) 32 0 []) ∧ ((fetching 0 []).ctx 3).step = none := by decide +kernel
theorem test_completionTimeout : after (.completionTimeout 9) (fetching 0 [])
    (fun t => (t.ctx 3).state == .halted && (t.ctx 3).halt == .memoryFault && t.notice.attention == 8) = true := by
  decide +kernel

/-- A sweep read has been sent; station 3 has a context. -/
def sweeping (c : Context) : State := (queued [sentRead .sweepRead 1536 5 []]).setCtx 3 c

theorem witness_FaultedSweep :
    (sweeping Context.initial).sentRead 9 = some (sentRead .sweepRead 1536 5 []) ∧
      (sentRead .sweepRead 1536 5 []).req.kind = .sweepRead ∧ (sweeping Context.initial).ctl.state = .active := by
  decide +kernel
theorem witness_ReadFaults :
    ReadFaults (.completionTimeout 9) 9 (sentRead .sweepRead 1536 0 []) { tag := 9, timer := 0, got := [] } ∧
      ReadFaults (.readCompletion 9 .poisoned 0 []) 9 (sentRead .sweepRead 1536 5 []) { tag := 9, timer := 5, got := [] } ∧
      ReadFaults (.readCompletion 9 .success 4 []) 9 (sentRead .sweepRead 1536 5 []) { tag := 9, timer := 5, got := [] } :=
  ⟨.inl ⟨rfl, rfl⟩, .inr (.inl ⟨0, [], .inr rfl⟩), .inr (.inr ⟨4, [], rfl, .inl (by decide)⟩)⟩
theorem test_sweepOverrun : after (.readCompletion 9 .success 0 (List.replicate 1537 0)) (sweeping Context.initial)
    (fun t => t.ctl.state == .quiescing && t.ctl.fault == .sweepRead) = true := by decide +kernel

/-- A directory whose entry of station 3 has this host half, all others being disabled. -/
def directory (half : List Byte) : List Byte :=
  List.replicate 192 0 ++ padTo 32 half ++ List.replicate 1312 0

/-- A host half: base 0x4000, ring exponent 3, enabled, no cohort. -/
def enabledHalf : List Byte := [0, 0x40, 0, 0, 0, 0, 0, 0, 3, 1, 0xFF]

theorem witness_CompletedSweep :
    (directory enabledHalf).length = 1536 ∧
      (hostHalfOf (((directory enabledHalf).drop (64 * 3)).take 32)).enabled = true ∧
      (hostHalfOf (((directory enabledHalf).drop (64 * 3)).take 32)).valid = true ∧
      (hostHalfOf (((directory enabledHalf).drop (64 * 3)).take 32)).handover =
        (hostHalfOf (((directory enabledHalf).drop (64 * 3)).take 32)).origin ∧
      (hostHalfOf (((directory [0, 0, 0, 0, 0, 0, 0, 0, 2, 1, 0xFF]).drop (64 * 3)).take 32)).valid = false ∧
      ((sweeping Context.initial).ctx 3).state = .idle := by decide +kernel
/-- An enabled host half with a handover count. -/
def handoverHalf (count : Byte) : List Byte := enabledHalf ++ [0, 0, 0, count]

theorem witness_CompletedSweep_arrives : SweepArrives (sweeping Context.initial) 9 0 (directory enabledHalf) (directory enabledHalf) :=
  ⟨rfl, by decide +kernel, _, _, rfl, rfl, rfl, rfl, rfl, rfl⟩
theorem witness_CompletedSweep_handover :
    (hostHalfOf (((directory (handoverHalf 8)).drop (64 * 3)).take 32)).handover = 8 ∧
      (hostHalfOf (((directory (handoverHalf 9)).drop (64 * 3)).take 32)).handover = 9 ∧
      (hostHalfOf (((directory (handoverHalf 8)).drop (64 * 3)).take 32)).exp = 3 := by decide +kernel
theorem test_sweepEnables_handover :
    after (.readCompletion 9 .success 0 (directory (handoverHalf 8))) (sweeping Context.initial)
      (fun t => (t.ctx 3).state == .fetching && (t.ctx 3).taken == 1 && (t.ctx 3).lastRead == 8) = true ∧
    after (.readCompletion 9 .success 0 (directory (handoverHalf 9))) (sweeping Context.initial)
      (fun t => (t.ctx 3).state == .halted && (t.ctx 3).halt == .badHandover && (t.ctx 3).taken == 0) = true := by
  decide +kernel
theorem test_sweepEnables : after (.readCompletion 9 .success 0 (directory enabledHalf)) (sweeping Context.initial)
    (fun t => (t.ctx 3).state == .ready && (t.ctx 3).base == 0x4000 && (t.ctx 4).state == .idle) = true := by decide +kernel

theorem witness_CompletedSweep_notArrived : NotArrived (sweeping Context.initial) 3 := by unfold NotArrived; decide +kernel

/-- A sweep whose read is complete with another one pending. -/
def sweepPending : State :=
  { sweeping Context.initial with sweep := { timer := none, pending := true, inFlight := true } }

theorem witness_SweepEnds : SweepArrives sweepPending 9 0 (directory []) (directory []) ∧ sweepPending.sweep.pending = true :=
  ⟨⟨rfl, by decide +kernel, _, _, rfl, rfl, rfl, rfl, rfl, rfl⟩, rfl⟩
theorem witness_SweepEnds_quiescing :
    ({ sweepPending with ctl := (inState .quiescing).ctl } : State).sentRead 9 = some (sentRead .sweepRead 1536 5 []) ∧
      ([] : List Byte).length + (directory []).length = (sentRead .sweepRead 1536 5 []).req.length := by decide +kernel
theorem test_sweepEnds : after (.readCompletion 9 .success 0 (directory [])) sweepPending
    (fun t => t.sweep == { timer := some 250000, pending := false, inFlight := true } && t.engine.inQueue .sweepRead) = true := by
  decide +kernel

/-! ### The Notice Block writer and the end of a quiesce -/

/-- A part whose writer is in a state. -/
def writing (w : WriterState) (pending : Bool) : State :=
  { active with notice := { active.notice with writer := w, timer := some 0, pending := pending } }

theorem witness_MessageOffer :
    (writing .sending false).notice.writer = .sending ∧ (writing .sending false).notice.offered = false ∧
      (writing .sending false).engine.inRoom .noticeBlock = false ∧ (writing .sending false).notice.awaitHeld = [] ∧
      (writing .sending false).ctl.state ≠ .config := by decide +kernel
theorem test_messageOffer : after .messageOffer (writing .sending false) (fun t => t.engine.inQueue .message) = true := by
  decide +kernel
theorem witness_HoldoffEnd :
    (writing .holdoff true).notice.writer = .holdoff ∧ (writing .holdoff true).notice.timer = some 0 ∧
      (writing .holdoff true).notice.pending = true ∧ (writing .holdoff false).notice.pending = false := by decide +kernel
theorem test_holdoffEnd :
    after .holdoffEnd (writing .holdoff true) (fun t => t.notice.writer == .sending) = true ∧
      after .holdoffEnd (writing .holdoff false) (fun t => t.notice.writer == .idle) = true := by decide +kernel

/-- A part in QUIESCING with everything at rest. -/
def quiesced (d : Destination) : State :=
  { inState .quiescing with ctl := { (inState .quiescing).ctl with dest := d } }

theorem witness_QuiesceComplete :
    (quiesced .config).ctl.state = .quiescing ∧ (∀ n, ((quiesced .config).ctx n).state = .idle) ∧
      (∀ n, (quiesced .config).engine.held.get n = none) ∧ (quiesced .config).notice.writer ≠ .sending ∧
      (quiesced .config).ctl.dest = .config ∧ (quiesced .faulted).ctl.dest = .faulted := by decide +kernel
theorem test_quiesceComplete : after .quiesceComplete (quiesced .faulted)
    (fun t => t.ctl.state == .faulted && t.notice.attention == 0x80000000) = true := by decide +kernel

/-! ### The sequencer -/

theorem witness_Pause : Handed (handed (.pause 5)) 3 (flight (.pause 5) true) (.pause 5) := ⟨rfl, rfl⟩
theorem witness_PauseExpiry :
    Flying (flying (.pause 5)) 3 (flight (.pause 5) false) (.pause 5) ∧ ((flying (.pause 5)).ctx 3).deadline = some 0 :=
  ⟨⟨rfl, rfl⟩, rfl⟩
theorem test_pause : after (.pause 3) (handed (.pause 5)) (fun t => (t.ctx 3).deadline == some 6) = true := by decide +kernel
theorem test_pauseExpiry : after (.pauseExpiry 3) (flying (.pause 5)) (fun t => (t.ctx 3).state == .posting) = true := by
  decide +kernel
theorem test_note : after (.note 3) (handed (.note [1, 2]))
    (fun t => (t.engine.queue.map fun e => e.req.bytes.take 15) ==
      [[0, 0, 0, 0, 5, 0, 0, 0, 0x23, 1, 0, 0, 1, 2, 0]]) = true := by decide +kernel
theorem witness_Setup :
    (∀ c, ((handed (.setup Settings.default)).chan 3 c).state = .idle) ∧
      (∀ u slot, ((handed (.setup Settings.default)).unit u).binding ≠ some (3, slot)) ∧
      ∃ c, ((channeled (handed (.setup Settings.default)) { Channel.initial with state := .held }).chan 3 c).state ≠ .idle := by
  decide +kernel
theorem test_setup : after (.setup 3) (handed (.setup { Settings.default with gapLimit := 9 }))
    (fun t => (t.ctx 3).settings.gapLimit == 9 && (t.ctx 3).state == .posting) = true := by decide +kernel
theorem witness_Retirement :
    ((withCtx (postingCtx .skipped)).ctx 3).state = .posting ∧ ((withCtx (postingCtx .skipped)).ctx 3).backlog = none ∧
      (withCtx (postingCtx .skipped)).engine.inRoom (.outcome 3) = false ∧
      ((withCtx (postingCtx .skipped)).ctx 3).disabling = false ∧ ((withCtx (postingCtx .skipped)).ctx 3).pendingHalt = none ∧
      ((withCtx (postingCtx .skipped)).ctx 3).badMark = false := by decide +kernel
theorem test_retirement :
    after (.retirement 3) (withCtx (postingCtx (.ordinary .noAnswer true (.skip 4))))
      (fun t => (t.ctx 3).skipDebt == 4 && (t.ctx 3).retired == 1 && (t.ctx 3).state == .ready &&
        t.notice.attention == 8) = true ∧
    after (.retirement 3) (withCtx (postingCtx .mismatch))
      (fun t => (t.ctx 3).halt == .stripMismatch && (t.ctx 3).retired == 0) = true := by decide +kernel
theorem test_retirement_ways :
    after (.retirement 3) (withCtx { postingCtx .skipped with disabling := true })
      (fun t => (t.ctx 3).state == .idle && (t.ctx 3).retired == 1) = true ∧
    after (.retirement 3) (withCtx { postingCtx .skipped with pendingHalt := some .unseated })
      (fun t => (t.ctx 3).halt == .unseated && (t.ctx 3).retired == 1) = true ∧
    after (.retirement 3) (withCtx { postingCtx .skipped with badMark := true })
      (fun t => (t.ctx 3).halt == .badHandover && (t.ctx 3).state == .halted) = true := by decide +kernel
theorem test_discarded_ways :
    after (.discarded 3) (withCtx { postingCtx (.discard 1) with disabling := true })
      (fun t => (t.ctx 3).state == .idle && (t.ctx 3).retired == 1) = true ∧
    after (.discarded 3) (withCtx { postingCtx (.discard 1) with badMark := true })
      (fun t => (t.ctx 3).halt == .badHandover) = true := by decide +kernel
theorem witness_Discard :
    ((withCtx (postingCtx (.discard 3))).ctx 3).taken = ((withCtx (postingCtx (.discard 3))).ctx 3).retired + 1 ∧
      ((withCtx (postingCtx (.discard 3))).ctx 3).taken ≠ 3 ∧ ((withCtx (postingCtx (.discard 1))).ctx 3).taken = 1 ∧
      ((withCtx (postingCtx (.discard 1))).ctx 3).skipDebt = 0 := by decide +kernel
theorem test_discarded :
    after (.discarded 3) (withCtx (postingCtx (.discard 3))) (fun t => (t.ctx 3).retired == 1 && (t.ctx 3).taken == 2) = true ∧
    after (.discarded 3) (withCtx (postingCtx (.discard 1))) (fun t => (t.ctx 3).state == .ready) = true := by decide +kernel

/-- An enabled host half whose stop count is 7. -/
def stopHalf : List Byte := enabledHalf ++ [0, 0, 0, 0, 0, 7]

/-- An enabled host half whose resume count is 7. -/
def resumeHalf : List Byte := enabledHalf ++ [0, 0, 0, 0, 0, 0, 7]

/-- An enabled station with nothing to do, or halted. -/
def readyCtx (st : StationState) (r : HaltReason) : Context := { Context.initial with state := st, halt := r, exp := 3 }

theorem witness_SweepStops :
    (sweeping (readyCtx .ready .none)).waitList = [] ∧ (∀ k, ((sweeping (readyCtx .ready .none)).cohort k).arrived = []) ∧
      (hostHalfOf (((directory stopHalf).drop (64 * 3)).take 32)).stop ≠ 0 ∧
      (hostHalfOf (((directory stopHalf).drop (64 * 3)).take 32)).resume = 0 ∧
      (hostHalfOf (((directory stopHalf).drop (64 * 3)).take 32)).enabled = true ∧
      (hostHalfOf (((directory resumeHalf).drop (64 * 3)).take 32)).resume ≠ 0 ∧
      (hostHalfOf (((directory resumeHalf).drop (64 * 3)).take 32)).handover = 0 ∧
      (hostHalfOf (((directory []).drop (64 * 3)).take 32)).enabled = false := by decide +kernel
theorem witness_SweepStops_arrives :
    SweepArrives (sweeping (readyCtx .ready .none)) 9 0 (directory stopHalf) (directory stopHalf) ∧ NobodyWaits (sweeping (readyCtx .ready .none)) :=
  ⟨⟨rfl, by decide +kernel, _, _, rfl, rfl, rfl, rfl, rfl, rfl⟩, by unfold NobodyWaits; decide +kernel⟩
/-- A sweep read and station 3's fetch read have been sent. -/
def sweepingFetch : State :=
  { sweeping (readyCtx .fetching .none) with engine := { active.engine with
    queue := [sentRead .sweepRead 1536 5 [],
              { unsent (.fetch 3) 32 with sent := some { tag := 8, timer := 5, got := [] } }] } }

theorem witness_SweepStops_fetch : FetchStands sweepingFetch 3 9 ∧ FetchMissing (sweeping (readyCtx .fetching .none)) 3 :=
  ⟨⟨_, .tail _ (.head _), rfl, rfl⟩, by decide +kernel, by intro r h; cases h⟩
theorem test_sweepStops_fetching :
    after (.readCompletion 9 .success 0 (directory stopHalf)) sweepingFetch
      (fun t => (t.ctx 3).state == .fetching && (t.ctx 3).pendingHalt == some .stopRequest) = true ∧
    after (.readCompletion 9 .success 0 (directory stopHalf)) (sweeping { readyCtx .fetching .none with taken := 1 })
      (fun t => (t.ctx 3).halt == .stopRequest && (t.ctx 3).taken == 0) = true ∧
    after (.readCompletion 9 .success 0 (directory [])) (sweeping { readyCtx .fetching .none with taken := 1 })
      (fun t => (t.ctx 3).state == .idle && (t.ctx 3).taken == 0) = true := by decide +kernel
theorem test_sweepStops_posting :
    after (.readCompletion 9 .success 0 (directory stopHalf)) (sweeping (postingCtx .skipped))
      (fun t => (t.ctx 3).state == .posting && (t.ctx 3).pendingHalt == some .stopRequest) = true ∧
    after (.readCompletion 9 .success 0 (directory [])) (sweeping (postingCtx .skipped))
      (fun t => (t.ctx 3).state == .posting && (t.ctx 3).disabling) = true ∧
    after (.readCompletion 9 .success 0 (directory [])) (sweeping (readyCtx .halted .stepFailed))
      (fun t => (t.ctx 3).state == .idle && (t.ctx 3).halt == .stepFailed) = true := by decide +kernel
theorem test_sweepStops_handover :
    after (.readCompletion 9 .success 0 (directory (handoverHalf 8))) (sweeping (readyCtx .ready .none))
      (fun t => (t.ctx 3).state == .fetching && (t.ctx 3).taken == 1) = true ∧
    after (.readCompletion 9 .success 0 (directory (handoverHalf 9))) (sweeping (readyCtx .ready .none))
      (fun t => (t.ctx 3).halt == .badHandover) = true ∧
    after (.readCompletion 9 .success 0 (directory (handoverHalf 9))) (sweeping { readyCtx .posting .none with posting := .skipped })
      (fun t => (t.ctx 3).badMark) = true ∧
    after (.readCompletion 9 .success 0 (directory (handoverHalf 2)))
      (sweeping { readyCtx .posting .none with taken := 1, lastRead := 5, posting := .discard 5 })
      (fun t => (t.ctx 3).posting == .discard 2) = true := by decide +kernel
theorem test_sweepDiscards :
    after (.readCompletion 9 .success 0 (directory (enabledHalf ++ [1, 0, 0, 2, 0, 0, 7])))
      (sweeping { readyCtx .halted .stepFailed with lastRead := 2 })
      (fun t => (t.ctx 3).posting == .discard 2 && (t.ctx 3).taken == 1 && (t.ctx 3).halt == .none) = true := by decide +kernel
theorem witness_SweepStops_undisturbed :
    Undisturbed (sweeping (readyCtx .ready .none)) 3 ∧ Undisturbed (sweeping (readyCtx .halted .stepFailed)) 3 ∧
      Undisturbed (sweeping (stepCtx (.pause 5) false)) 3 ∧
      Flying (sweeping (stepCtx (.pause 5) false)) 3 (flight (.pause 5) false) (.pause 5) :=
  ⟨⟨rfl, rfl, rfl⟩, ⟨rfl, rfl, rfl⟩, ⟨rfl, rfl, rfl⟩, ⟨rfl, rfl⟩⟩
theorem test_sweepStops :
    after (.readCompletion 9 .success 0 (directory stopHalf)) (sweeping (readyCtx .ready .none))
      (fun t => (t.ctx 3).state == .halted && (t.ctx 3).halt == .stopRequest) = true ∧
    after (.readCompletion 9 .success 0 (directory resumeHalf)) (sweeping (readyCtx .halted .stepFailed))
      (fun t => (t.ctx 3).state == .ready && (t.ctx 3).halt == .none) = true := by decide +kernel

/-- A sweep read has been sent and station 3 waits for a unit with its ARM. -/
def sweepingArm : State :=
  { sweeping { stepCtx (.arm 1 { kind := .interval, start := .edgeX, x := .sense0, y := .sense1, xEdge := .rising,
                                  yEdge := .rising, gating := .none, window := 10, gate := 0 }) false with
      state := .waitingUnit, exp := 3 } with
    units := active.units.map fun u => { u with state := .done },
    waitList := [{ station := 3, slot := 1, arm := MeasUnit.initial.arm, start := 5 }] }

/-- A sweep read has been sent and station 3 stands at the barrier of cohort 2. -/
def sweepingBarrier : State :=
  (sweeping { stepCtx (.barrier none none 0 1) false with state := .atBarrier, cohort := some 2, exp := 3 }).setCohort 2
    { live := [3, 5], arrived := [{ station := 3, channel := none, delay := 0, width := 1 }], binding := none, ready := false,
      generation := 6 }

theorem sweepingArm_states : ∀ m : StationId, m ≠ 3 → (sweepingArm.ctx m).state = .idle := by decide +kernel
theorem sweepingBarrier_states : ∀ m : StationId, m ≠ 3 → (sweepingBarrier.ctx m).state = .idle := by decide +kernel
theorem stopHalf_others : ∀ m : StationId, m ≠ 3 → (observed (directory stopHalf) m).enabled = false := by decide +kernel
theorem witness_SweepStops_waiting :
    OthersCalm sweepingArm 3 (directory stopHalf) ∧ Undisturbed sweepingArm 3 ∧
      ¬NobodyWaits sweepingArm ∧ (∀ u, (sweepingArm.unit u).state ≠ .free) :=
  ⟨fun m h => .inl ⟨sweepingArm_states m h, stopHalf_others m h⟩, ⟨rfl, rfl, rfl⟩, fun h => absurd h.1 (by decide),
    by decide +kernel⟩
theorem witness_SweepStops_atBarrier :
    OthersCalm sweepingBarrier 3 (directory stopHalf) ∧ Undisturbed sweepingBarrier 3 ∧
      InStep sweepingBarrier 3 (flight (.barrier none none 0 1) false) ∧ (sweepingBarrier.ctx 3).cohort = some 2 :=
  ⟨fun m h => .inl ⟨sweepingBarrier_states m h, stopHalf_others m h⟩, ⟨rfl, rfl, rfl⟩, ⟨rfl, .inr (.inr rfl)⟩, rfl⟩
theorem test_sweepStops_waiting :
    after (.readCompletion 9 .success 0 (directory stopHalf)) sweepingArm
      (fun t => (t.ctx 3).posting == .ordinary .stopped true .halt && t.waitList == []) = true ∧
    after (.readCompletion 9 .success 0 (directory stopHalf)) sweepingBarrier
      (fun t => (t.ctx 3).pendingHalt == some .stopRequest && (t.cohort 2).arrived == [] && (t.cohort 2).live == [3, 5]) = true ∧
    after (.readCompletion 9 .success 0 (directory [])) sweepingBarrier
      (fun t => (t.ctx 3).disabling && (t.cohort 2).arrived == [] && (t.cohort 2).live == [5]) = true := by decide +kernel
theorem handoverHalf_others : ∀ m : StationId, m ≠ 3 → (observed (directory (handoverHalf 2)) m).enabled = false := by
  decide +kernel
theorem witness_SweepStops_handoverAtBarrier :
    OthersCalm sweepingBarrier 3 (directory (handoverHalf 2)) ∧ ¬NobodyWaits sweepingBarrier ∧
      (sweepingBarrier.ctx 3).state = .atBarrier ∧
      (sweepingBarrier.ctx 3).handoverPasses (observed (directory (handoverHalf 2)) 3).handover = true :=
  ⟨fun m h => .inl ⟨sweepingBarrier_states m h, handoverHalf_others m h⟩, fun h => absurd (h.2 2) (by decide +kernel),
    rfl, by decide +kernel⟩
theorem test_sweepHandover_atBarrier :
    after (.readCompletion 9 .success 0 (directory (handoverHalf 2))) sweepingBarrier
      (fun t => (t.ctx 3).state == .atBarrier && (t.ctx 3).lastRead == 2) = true ∧
    after (.readCompletion 9 .success 0 (directory (handoverHalf 12))) sweepingBarrier
      (fun t => (t.ctx 3).state == .atBarrier && (t.ctx 3).badMark) = true := by decide +kernel
theorem witness_SweepResumes_notArrived : NotArrived (sweeping (readyCtx .halted .stepFailed)) 3 := by
  unfold NotArrived
  decide +kernel
theorem witness_SweepResumes_badEntry :
    (hostHalfOf (((directory resumeHalf).drop (64 * 3)).take 32)).valid = true ∧
      (observed (directory (List.replicate 8 0 ++ [2, 1, 0xFF, 0, 0, 0, 0, 0, 0, 7])) 3).valid = false ∧
      ((sweeping (readyCtx .halted .badEntry)).ctx 3).halt = .badEntry ∧
      Undisturbed (sweeping (readyCtx .halted .badEntry)) 3 :=
  ⟨by decide +kernel, by decide +kernel, rfl, ⟨rfl, rfl, rfl⟩⟩
theorem test_sweepResumes_badEntry :
    after (.readCompletion 9 .success 0 (directory resumeHalf)) (sweeping (readyCtx .halted .badEntry))
      (fun t => (t.ctx 3).state == .ready && (t.ctx 3).base == 0x4000 && (t.ctx 3).resumeSeen == 7) = true ∧
    after (.readCompletion 9 .success 0 (directory (List.replicate 8 0 ++ [2, 1, 0xFF, 0, 0, 0, 0, 0, 0, 7])))
      (sweeping (readyCtx .halted .badEntry))
      (fun t => (t.ctx 3).state == .halted && (t.ctx 3).halt == .badEntry && (t.ctx 3).resumeSeen == 7) = true := by
  decide +kernel
theorem witness_SweepDisables_afterStop :
    ((sweeping { postingCtx .skipped with pendingHalt := some .stopRequest }).ctx 3).disabling = false ∧
      ((sweeping { postingCtx .skipped with pendingHalt := some .stopRequest }).ctx 3).pendingHalt ≠ none := by decide +kernel
theorem test_sweepDisables_afterStop :
    after (.readCompletion 9 .success 0 (directory []))
      (sweeping { postingCtx .skipped with pendingHalt := some .stopRequest })
      (fun t => (t.ctx 3).disabling && (t.ctx 3).state == .posting) = true := by decide +kernel

/-! ### The probe link -/

theorem witness_Query :
    ((linked (handed (.query query)) fun l => { l with state := .lineFault }).st 3).link.state = .lineFault ∧
      ((handed (.query query)).st 3).link.state = .idle ∧ ((handed (.query query)).st 3).link.high = true ∧
      ((linked (handed (.query query)) fun l => { l with state := .recover }).st 3).link.state = .recover := by decide +kernel
theorem test_query : after (.query 3) (handed (.query query))
    (fun t => (t.st 3).link.state == .break && !(t.st 3).link.high) = true := by decide +kernel

/-- A link at the end of a phase. -/
def phaseEnd (st : LinkState) (mismatch : Bool) : State :=
  linked (flying (.query query)) fun l => { l with state := st, bitEnd := true, mismatch := mismatch }

theorem witness_BreakBegin :
    ((linked (flying (.query query)) fun l => { l with waiting := true }).st 3).link.waiting = true ∧
      ((linked (flying (.query query)) fun l => { l with waiting := true }).st 3).link.recog = none := by decide +kernel
theorem test_breakBegin : after (.breakBegin 3) (linked (flying (.query query)) fun l => { l with waiting := true })
    (fun t => (t.st 3).link.state == .break) = true := by decide +kernel
theorem witness_QuerySent :
    ((phaseEnd .send false).st 3).link.bitEnd = true ∧ ((phaseEnd .send false).st 3).link.mismatch = false ∧
      ((phaseEnd .break true).st 3).link.mismatch = true ∧ query.expectAnswer = true := by decide +kernel
theorem test_breakEnd : after (.breakEnd 3) (phaseEnd .break false)
    (fun t => (t.st 3).link.state == .delimit && (t.st 3).link.high) = true := by decide +kernel
theorem test_delimiterEnd : after (.delimiterEnd 3) (phaseEnd .delimit false)
    (fun t => (t.st 3).link.state == .send && (t.st 3).link.bits.length == 70 && !(t.st 3).link.high) = true := by
  decide +kernel
theorem test_querySent : after (.querySent 3) (phaseEnd .send false)
    (fun t => (t.st 3).link.state == .awaitAnswer && (t.ctx 3).deadline == some 51) = true := by decide +kernel
theorem test_bitError : after (.bitError 3) (phaseEnd .send true)
    (fun t => (t.st 3).link.state == .recover && (t.ctx 3).posting == .ordinary .bitError true .halt) = true := by
  decide +kernel

/-- A link that has received `count` bytes of an answer, and now a byte. -/
def received (count : Nat) (len : Byte) (b : Byte) : State :=
  linked (flying (.query query)) fun l =>
    { l with state := .receive, count := count, len := len, done := some (frameBits 1 b) }

theorem witness_Answer_bytes :
    ((received 0 0 0x69).st 3).link.done = some (frameBits ((received 0 0 0x69).st 3).link.copy.stopBits 0x69) ∧
      ((received 0 0 0x69).st 3).link.state = .receive ∧ ((received 1 0 5).st 3).link.count = 1 ∧
      ((received 2 0 16).st 3).link.count = 2 ∧ 3 ≤ ((received 18 16 5).st 3).link.count ∧
      ((received 18 16 5).st 3).link.count < 3 + ((received 18 16 5).st 3).link.len.toNat := by decide +kernel
theorem witness_Answer_lengthEdges : (16 : Byte).toNat ≤ 16 ∧ 16 < (17 : Byte).toNat := by decide
theorem witness_Answer_check :
    3 + ((received 3 0 0xFF).st 3).link.len.toNat ≤ ((received 3 0 0xFF).st 3).link.count ∧
      (0xFF : Byte) = answerCheck ((received 3 0 0xFF).st 3).link ∧
      (0xFE : Byte) ≠ answerCheck ((received 3 0 0xFE).st 3).link := by decide +kernel
theorem witness_Answer_frame :
    (frameBits 1 (0x69 : Byte)).head? = some false ∧ false ∈ ((frameBits 1 (0x69 : Byte)).take 9 ++ [false]).drop 9 := by
  decide +kernel
theorem test_answerByte :
    after (.answerByte 3) (received 0 0 0x69) (fun t => (t.st 3).link.count == 1) = true ∧
      after (.answerByte 3) (received 3 0 0xFF)
        (fun t => (t.ctx 3).posting == .ordinary .ok true .halt && (t.st 3).link.state == .idle) = true := by decide +kernel
theorem test_answerByte_lead : after (.answerByte 3) (received 0 0 0x68)
    (fun t => (t.ctx 3).posting == .ordinary .answerLead true .halt && (t.st 3).link.state == .recover) = true := by
  decide +kernel

/-- A link that awaits an answer. -/
def awaiting : State := linked (flying (.query query)) fun l => { l with state := .awaitAnswer, startDue := true }

theorem witness_AnswerStart :
    (awaiting.st 3).link.state = .awaitAnswer ∧ (awaiting.st 3).link.startDue = true ∧
      (awaiting.ctx 3).deadline = some 0 := by decide +kernel
theorem test_answerStart : after (.answerStart 3) awaiting
    (fun t => (t.st 3).link.state == .receive && (t.ctx 3).deadline == none) = true := by decide +kernel
theorem test_noAnswer : after (.noAnswer 3) awaiting
    (fun t => (t.ctx 3).posting == .ordinary .noAnswer true .halt) = true := by decide +kernel

/-- A link whose gap or rest has reached the limit. -/
def rested (st : LinkState) : State := linked (flying (.query query)) fun l => { l with state := st, wait := some 0 }

theorem witness_Silence :
    ((rested .receive).st 3).link.inByte = false ∧ ((rested .receive).st 3).link.done = none ∧
      ((rested .receive).st 3).link.wait = some 0 ∧ ((rested .recover).st 3).link.state = .recover ∧
      ((rested .receive).ctx 3).step = some (flight (.query query) false) := by decide +kernel
theorem test_gapTimeout : after (.gapTimeout 3) (rested .receive)
    (fun t => (t.ctx 3).posting == .ordinary .gapTimeout true .halt) = true := by decide +kernel
theorem test_recoverEnd : after (.recoverEnd 3) (rested .recover) (fun t => (t.st 3).link.state == .idle) = true := by
  decide +kernel

/-- A line that has been dominant or recessive for some periods. -/
def level (s : State) (st : LinkState) (high : Bool) (age : Nat) : State :=
  linked s fun l => { l with
    state := st, outside := if high then .released else .low, mon := { high := high, age := age, beganIn := st, attnMin := 5 } }

theorem witness_LineLevels :
    ((level active .idle false 625000).st 3).link.mon.high = false ∧
      ((level active .lineFault true 25000).st 3).link.state = .lineFault ∧ (125000 : Nat) ≤ 625000 := by decide +kernel
theorem test_probeEdge :
    after (.probeEdge 3 .released) (level active .idle false 125000) (fun t => (t.st 3).link.recog == some 0x123) = true ∧
    after (.probeEdge 3 .released) (level active .idle false 124999) (fun t => (t.st 3).link.recog.isNone) = true ∧
    after (.probeEdge 3 .high) (phaseEnd .break false) (fun t => (t.st 3).link.high && (t.st 3).link.drives) = true := by
  decide +kernel
theorem witness_LevelTaken :
    ((level active .awaitAnswer true 9).st 3).link.mon.high = true ∧ ((level active .receive true 9).st 3).link.inByte = false ∧
      ((level active .recover false 9).st 3).link.mon.high = false := by decide +kernel
theorem test_probeEdge_byState :
    after (.probeEdge 3 .low) (level active .awaitAnswer true 9) (fun t => (t.st 3).link.startDue) = true ∧
    after (.probeEdge 3 .low) (level active .receive true 9)
      (fun t => (t.st 3).link.inByte && (t.st 3).link.acc == 2 && (t.st 3).link.left == 27) = true ∧
    after (.probeEdge 3 .low) (linked (level active .recover true 9) fun l => { l with wait := some 5 })
      (fun t => (t.st 3).link.wait.isNone) = true ∧
    after (.probeEdge 3 .released) (level active .recover false 9) (fun t => (t.st 3).link.wait == some 128) = true := by
  decide +kernel
theorem test_lineFaultEntry : after (.lineFaultEntry 3) (level (flying (.query query)) .awaitAnswer false 625000)
    (fun t => (t.st 3).link.state == .lineFault && (t.st 3).link.faultCount == 1 &&
      (t.ctx 3).posting == .ordinary .lineStuck true .halt) = true := by decide +kernel
theorem test_lineFaultEnd : after (.lineFaultEnd 3) (level active .lineFault true 25000)
    (fun t => (t.st 3).link.state == .idle) = true := by decide +kernel
theorem witness_Attention :
    ((linked (handed (.awaitAttention false)) fun l => { l with latch := some 7 }).st 3).link.latch = some 7 ∧
      ((handed (.awaitAttention false)).st 3).link.latch = none ∧
      ((linked (flying (.awaitAttention false)) fun l => { l with recog := some 7 }).st 3).link.recog = some 7 ∧
      ((flying (.awaitAttention false)).ctx 3).deadline = some 0 := by decide +kernel
theorem test_awaitAttention :
    after (.awaitAttention 3) (linked (handed (.awaitAttention false)) fun l => { l with latch := some 7 })
      (fun t => (t.ctx 3).state == .posting && (t.st 3).link.latch == none) = true ∧
    after (.awaitAttention 3) (handed (.awaitAttention true)) (fun t => (t.ctx 3).deadline == some 30001) = true := by
  decide +kernel
theorem test_attentionRecognition :
    after (.attentionRecognition 3) (linked active fun l => { l with recog := some 7 })
      (fun t => (t.st 3).link.latch == some 7 && (t.st 3).link.attnCount == 1) = true := by decide +kernel

/-- A recognition is to be taken with these requests in the queue and waiting for room. -/
def recognising (queue : List Entry) (room : List Request) : State :=
  linked { active with engine := { active.engine with queue := queue, room := room } } fun l => { l with recog := some 7 }

theorem witness_PartHalfUpdates :
    TakesWrites (recognising [] []) ∧
      (recognising [unsent (.partHalf 3) 32, unsent (.outcome 3) 32] []).engine.queue =
        [] ++ unsent (.partHalf 3) 32 :: [unsent (.outcome 3) 32] ∧
      ∃ r ∈ (recognising [] [(unsent (.partHalf 3) 32).req]).engine.room, r.kind = .partHalf 3 :=
  ⟨.inl rfl, rfl, _, .head _, rfl⟩
theorem test_partHalf_offeredMergedHeldReplaced :
    after (.attentionRecognition 3) (recognising [] []) (fun t => t.engine.queue.length == 1) = true ∧
    after (.attentionRecognition 3) (recognising [unsent (.partHalf 3) 32] [])
      (fun t => (t.engine.queue.map fun e => e.req.bytes.length) == [32]) = true ∧
    after (.attentionRecognition 3) (recognising [unsent (.partHalf 3) 32, unsent (.outcome 3) 32] [])
      (fun t => (t.engine.queue.map fun e => e.req.bytes.length) == [0, 0] && (t.engine.held.get 3).isSome) = true ∧
    after (.attentionRecognition 3) (recognising [] [(unsent (.partHalf 3) 32).req])
      (fun t => (t.engine.room.map fun r => r.bytes.length) == [32] && t.engine.queue == []) = true := by decide +kernel
theorem test_noAttention : after (.noAttention 3) (flying (.awaitAttention false))
    (fun t => (t.ctx 3).posting == .ordinary .noAttention true .halt) = true := by decide +kernel

/-! ### Actuator channels -/

/-- Channel 1 of station 3 in a state, its phase at its end. -/
def phased (s : State) (st : ChannelState) (p : Pulse) : State :=
  channeled s { state := st, timer := some 0, pulse := p, shadow := none, stamp := 4 }

theorem witness_Press :
    ((handed (.press 1 0 7)).chan 3 1).state = .idle ∧
      ((phased (handed (.press 1 0 7)) .held .none).chan 3 1).state ≠ .idle := by decide +kernel
theorem test_press :
    after (.press 3) (handed (.press 1 0 7)) (fun t => (t.chan 3 1).timer == some 8 && (t.chan 3 1).stamp == 0x123) = true ∧
    after (.press 3) (phased (handed (.press 1 0 7)) .held .none)
      (fun t => (t.ctx 3).posting == .ordinary .actuatorBusy true .halt) = true := by decide +kernel
theorem witness_Tap :
    ((handed (.tap 1 9 4 2)).chan 3 1).state = .idle ∧ ((phased (handed (.tap 1 9 4 2)) .tapOff .none).chan 3 1).state = .tapOff ∧
      ((phased (handed (.tap 1 9 4 2)) .held .none).chan 3 1).state = .held := by decide +kernel
theorem test_tap : after (.tap 3) (handed (.tap 1 9 4 2))
    (fun t => (t.chan 3 1).timer == some 5 && (t.chan 3 1).pulse == .tap 9 4 (some 1)) = true := by decide +kernel
theorem witness_Hold :
    ((phased (handed (.hold 1)) .tapOn .none).chan 3 1).state = .tapOn ∧
      ((phased (handed (.hold 1)) .held .none).chan 3 1).state = .held ∧
      ((phased (handed (.hold 1)) .delay .none).chan 3 1).state = .delay := by decide +kernel
theorem test_hold : after (.hold 3) (handed (.hold 1)) (fun t => (t.chan 3 1).output) = true := by decide +kernel
theorem test_lift : after (.lift 3) (phased (handed (.lift none)) .held .none)
    (fun t => (t.chan 3 1) == Channel.initial && (t.ctx 3).state == .posting) = true := by decide +kernel
theorem witness_ChannelPhases :
    ((phased active .delay (.press 7 false)).chan 3 1).timer = some 0 ∧
      ((phased active .delay (.press 7 false)).chan 3 1).pulse = .press 7 false ∧
      Flying (phased (flying (.press 1 0 7)) .asserted (.press 7 true)) 3 (flight (.press 1 0 7) false) (.press 1 0 7) :=
  ⟨rfl, rfl, rfl, rfl⟩
theorem test_delayEnd : after (.delayEnd 3 1) (phased active .delay (.press 7 false))
    (fun t => (t.chan 3 1).timer == some 7 && (t.chan 3 1).output) = true := by decide +kernel
theorem test_pressWidthEnd : after (.pressWidthEnd 3 1) (phased (flying (.press 1 0 7)) .asserted (.press 7 true))
    (fun t => (t.chan 3 1) == Channel.initial && (t.ctx 3).state == .posting) = true := by decide +kernel
theorem test_tapOnEnd : after (.tapOnEnd 3 1) (phased active .tapOn (.tap 9 4 none))
    (fun t => (t.chan 3 1).timer == some 5 && (t.chan 3 1).state == .tapOff) = true := by decide +kernel
theorem test_periodBoundary :
    after (.periodBoundary 3 1) (phased active .tapOff (.tap 9 4 (some 1)))
      (fun t => (t.chan 3 1).pulse == .tap 9 4 (some 0) && (t.chan 3 1).timer == some 4) = true ∧
    after (.periodBoundary 3 1) (phased active .tapOff (.tap 9 4 (some 0))) (fun t => (t.chan 3 1) == Channel.initial) = true := by
  decide +kernel

/-! ### Seat and supply -/

/-- Station 3 is seated with its supply in a state. -/
def seatedWith (s : State) (x : SupplyState) : State := powered s fun p => { p with seated := true, evaluated := true, supply := x }

/-- TRIP is accepted high. -/
def tripHigh (s : State) : State := powered s fun p => { p with trip := Filter.settled true }

theorem witness_Supply :
    ((handed (.supply true)).st 3).power.seated = false ∧ ((seatedWith (handed (.supply true)) .on).st 3).power.supply = .on ∧
      ((seatedWith (handed (.supply true)) .off).st 3).power.trip.accepted = false ∧
      ((tripHigh (seatedWith (handed (.supply true)) .tripped)).st 3).power.trip.accepted = true := by decide +kernel
theorem witness_Supply_undisturbed : Undisturbed (tripHigh (seatedWith (handed (.supply true)) .tripped)) 3 := ⟨rfl, rfl, rfl⟩
theorem test_supply :
    after (.supply 3) (seatedWith (handed (.supply true)) .off)
      (fun t => (t.st 3).power.supply == .ramping && (t.ctx 3).deadline == some 501) = true ∧
    after (.supply 3) (tripHigh (seatedWith (handed (.supply true)) .off))
      (fun t => (t.st 3).power.supply == .tripped && (t.ctx 3).pendingHalt == some .supplyTrip) = true := by decide +kernel

/-- A ramping supply whose SUPPLY_GOOD has risen. -/
def ramping : State := powered (seatedWith (flying (.supply true)) .ramping) fun p => { p with goodRise := true }

theorem witness_Ramp :
    (ramping.st 3).power.supply = .ramping ∧ (ramping.ctx 3).step = some (flight (.supply true) false) ∧
      (ramping.st 3).power.goodRise = true ∧ (ramping.ctx 3).deadline = some 0 := by decide +kernel
theorem test_supplyGoodRise : after (.supplyGoodRise 3) ramping
    (fun t => (t.st 3).power.supply == .on && (t.st 3).power.loss == some 25000) = true := by decide +kernel
theorem test_noSupplyGood : after (.noSupplyGood 3) ramping
    (fun t => (t.st 3).power.supply == .off && (t.ctx 3).posting == .ordinary .noSupplyGood true .halt) = true := by
  decide +kernel

/-- A supply that is ON with a trip and a loss to be taken. -/
def failing (s : State) : State := powered (seatedWith s .on) fun p => { p with tripRise := true, loss := some 0 }

theorem witness_Trip :
    ((failing active).st 3).power.tripRise = true ∧ ((failing active).st 3).power.loss = some 0 ∧
      ((failing (flying (.pause 5))).ctx 3).step = some (flight (.pause 5) false) ∧
      ((failing (withCtx (readyCtx .ready .none))).ctx 3).state = .ready := by decide +kernel
theorem test_tripAccepted : after (.tripAccepted 3) (failing (withCtx (readyCtx .ready .none)))
    (fun t => (t.ctx 3).halt == .supplyTrip && (t.st 3).power.tripCount == 1) = true := by decide +kernel
theorem test_trip_fetchingAndPosting :
    after (.tripAccepted 3) (failing (fetching 5 []))
      (fun t => (t.ctx 3).state == .fetching && (t.ctx 3).pendingHalt == some .supplyTrip) = true ∧
    after (.tripAccepted 3) (failing (withCtx { readyCtx .fetching .none with taken := 1 }))
      (fun t => (t.ctx 3).halt == .supplyTrip && (t.ctx 3).taken == 0) = true ∧
    after (.tripAccepted 3) (failing (withCtx (postingCtx .skipped)))
      (fun t => (t.ctx 3).state == .posting && (t.ctx 3).pendingHalt == some .supplyTrip) = true := by decide +kernel
theorem test_lossOfSupplyGood : after (.lossOfSupplyGood 3) (failing (flying (.pause 5)))
    (fun t => (t.ctx 3).posting == .ordinary .supplyTrip true .halt && (t.st 3).power.supply == .tripped) = true := by
  decide +kernel

theorem test_trip_handedSupplyOff : after (.tripAccepted 3) (failing (handed (.supply false)))
    (fun t => (t.engine.queue.map fun e => (e.req.kind, e.req.bytes.getD 12 0)) == [(.partHalf 3, 0), (.outcome 3, 3)]) = true := by
  decide +kernel

/-- The result bytes, from byte 0 on, of the outcome write that stands second in the queue. -/
def secondResult (t : State) (count : Nat) : List Byte :=
  match t.engine.queue[1]? with
  | some e => (e.req.bytes.drop 12).take count
  | none => []

theorem test_trip_results :
    after (.tripAccepted 3) (failing (flying (.supply true))) (fun t => secondResult t 4 == [3, 0, 0, 0]) = true ∧
    after (.tripAccepted 3)
      (failing (linked (flying (.query query)) fun l =>
        { l with state := .receive, status := 5, len := 2, count := 4, buffer := [0xAA] }))
      (fun t => secondResult t 6 == [5, 2, 4, 0xFF, 0xAA, 0]) = true ∧
    after (.tripAccepted 3) (failing (handed (.query query))) (fun t => secondResult t 4 == [0, 0, 0, 0xFF]) = true := by
  decide +kernel

/-- A seat whose run has reached 20. -/
def debounced (s : State) (evaluated seated : Bool) (dir : Option Bool) : State :=
  powered s fun p => { p with evaluated := evaluated, seated := seated, run := 20, runDir := dir, supply := .on }

theorem witness_Seat :
    ((debounced active false false (some true)).st 3).power.evaluated = false ∧
      ((debounced active false false (some true)).st 3).power.runDir = some true ∧
      ((debounced active false false (some false)).st 3).power.runDir = some false ∧
      ((debounced active true true none).st 3).power.run = 20 := by decide +kernel
theorem test_firstEvaluation : after (.firstEvaluation 3) (debounced active false false (some true))
    (fun t => (t.st 3).power.seated && t.notice.attention == 8) = true := by decide +kernel
theorem test_seatChange : after (.seatChange 3) (debounced (withCtx (readyCtx .ready .none)) true true none)
    (fun t => !(t.st 3).power.seated && (t.ctx 3).halt == .unseated && (t.st 3).power.supply == .off) = true := by decide +kernel
theorem test_seatChange_supplyOn : after (.seatChange 3) (debounced (flying (.supply true)) true true none)
    (fun t => (t.ctx 3).pendingHalt == some .unseated && secondResult t 4 == [0, 0, 0, 0]) = true := by decide +kernel
theorem test_seatChange_fetching : after (.seatChange 3) (debounced (fetching 5 []) true true none)
    (fun t => (t.ctx 3).state == .fetching && (t.ctx 3).pendingHalt == some .unseated) = true := by decide +kernel
theorem witness_Inputs :
    active.time.firstPeriod = false ∧ State.reset.time.firstPeriod = true ∧
      ((powered active fun p => { p with good := { p.good with cand := some 0 } }).st 3 |>.filter .supplyGood).cand = some 0 ∧
      (({ active with lineA := { active.lineA with filter := { active.lineA.filter with cand := some 0 } } } : State).line
        .a).filter.cand = some 0 := by decide +kernel
theorem test_inputChange : after (.inputChange (.filtered (.station 3 .sense0)) true) active
    (fun t => (t.st 3).sense0.cand == some 250) = true := by decide +kernel
theorem test_inputChange_lossFilter :
    after (.inputChange (.filtered (.station 3 .supplyGood)) false) (seatedWith active .on)
      (fun t => (t.st 3).power.loss == some 25000) = true ∧
    after (.inputChange (.filtered (.station 3 .supplyGood)) true) (failing active)
      (fun t => (t.st 3).power.loss.isNone) = true := by decide +kernel

/-- SENSE0 of station 3 has been high for its filter time, the raw level being `raw` now. -/
def lasted (raw : Bool) : State :=
  active.setSt 3 { active.st 3 with sense0 := { raw := raw, accepted := false, cand := some 0 } }

theorem test_inputChange_lasted : after (.inputChange (.filtered (.station 3 .sense0)) false) (lasted true)
    (fun t => (t.st 3).sense0.cand == some 0) = true := by decide +kernel
theorem test_filterAcceptance_returned : after (.filterAcceptance (.station 3 .sense0)) (lasted false)
    (fun t => (t.st 3).sense0 == { raw := false, accepted := true, cand := some 250 }) = true := by decide +kernel
theorem test_filterAcceptance :
    after (.filterAcceptance (.station 3 .trip)) (powered (seatedWith active .on) fun p =>
      { p with trip := { p.trip with cand := some 0 } }) (fun t => (t.st 3).power.tripRise) = true := by decide +kernel

/-! ### The Measurement Unit Pool -/

/-- The settings of a measurement. -/
def measure (kind : MeasKind) (start : StartCond) : ArmSettings :=
  { kind := kind, start := start, x := .sense0, y := .sense1, xEdge := .rising, yEdge := .rising, gating := .none,
    window := 10, gate := 1000 }

/-- Unit 2 bound to slot 1 of station 3. -/
def bound (s : State) (kind : MeasKind) (st : UnitState) (inbox : List EdgeEvent) : State :=
  s.setUnit 2 { MeasUnit.initial with
    state := st, binding := some (3, 1), arm := measure kind .edgeX, startStamp := 0x100, window := some 0, gate := some 0,
    inbox := inbox }

/-- No unit is FREE. -/
def allBusy (s : State) : State := { s with units := s.units.map fun u => if u.state = .free then { u with state := .done } else u }

/-- A rising edge of SENSE0. -/
def rise : EdgeEvent := { signal := .sense0, high := true, stamp := 0x120 }

theorem witness_Arm :
    ((bound (handed (.arm 1 (measure .interval .immediate))) .interval .done []).unit 2).binding = some (3, 1) ∧
      (∀ u, ((handed (.arm 1 (measure .interval .immediate))).unit u).binding ≠ some (3, 1)) ∧
      ((handed (.arm 1 (measure .interval .immediate))).unit 0).state = .free ∧
      (∀ u, ((allBusy (handed (.arm 1 (measure .interval .immediate)))).unit u).state ≠ .free) := by decide +kernel
theorem test_arm :
    after (.arm 3) (handed (.arm 1 (measure .interval .immediate)))
      (fun t => (t.unit 0).state == .running && (t.unit 0).startStamp == 0x123) = true ∧
    after (.arm 3) (allBusy (handed (.arm 1 (measure .interval .immediate))))
      (fun t => (t.ctx 3).state == .waitingUnit && t.waitList.length == 1) = true := by decide +kernel

/-- Station 5 waits for a unit. -/
def waiter (s : State) : State :=
  { s.setCtx 5 { stepCtx (.arm 0 (measure .width .edgeX)) false with state := .waitingUnit } with
    waitList := [{ station := 5, slot := 0, arm := measure .width .edgeX, start := 0x103 }] }

theorem witness_Collect :
    (∀ u, ((handed (.collect 1)).unit u).binding ≠ some (3, 1)) ∧
      (bound (handed (.collect 1)) .interval .done []).slotUnit 3 1 = some 2 ∧
      ((bound (handed (.collect 1)) .interval .armed []).unit 2).state ≠ .done ∧
      (waiter (allBusy (bound (handed (.collect 1)) .interval .done []))).waitList ≠ [] ∧
      (∀ v, ((waiter (allBusy (bound (handed (.collect 1)) .interval .done []))).unit v).state ≠ .free) ∧
      ((waiter (allBusy (bound (handed (.collect 1)) .interval .done []))).ctx 5).step ≠ none := by decide +kernel
theorem test_collect :
    after (.collect 3) (bound (handed (.collect 1)) .interval .done [])
      (fun t => (t.ctx 3).state == .posting && (t.unit 2) == MeasUnit.initial) = true ∧
    after (.collect 3) (waiter (allBusy (bound (handed (.collect 1)) .interval .done [])))
      (fun t => (t.unit 2).binding == some (5, 0) && t.waitList == [] && (t.ctx 5).state == .posting &&
        (t.ctx 3).state == .posting) = true := by decide +kernel
theorem test_stop_abandonsHandedCollect :
    after (.tripAccepted 3) (failing (bound (handed (.collect 1)) .interval .armed []))
      (fun t => (t.ctx 3).state == .posting && (t.unit 2) == MeasUnit.initial) = true := by decide +kernel

/-- Station 3 collects from unit 2 and holds unit 0 too, station 5 waits, and no unit is FREE. -/
def holdingTwo : State :=
  (waiter (allBusy (bound (sweeping (stepCtx (.collect 1) false)) .interval .armed []))).setUnit 0
    { MeasUnit.initial with state := .done, binding := some (3, 0) }

theorem test_disable_grantsLowestUnit : after (.readCompletion 9 .success 0 (directory [0, 0, 0, 0, 0, 0, 0, 0, 0, 0, 0]))
    (holdingTwo.setCtx 5 { (holdingTwo.ctx 5) with disabling := true })
    (fun t => (t.unit 0).binding == some (5, 0) && (t.unit 2).state == .free) = true := by decide +kernel
theorem witness_MeasuredEdge :
    ((bound active .edges .running [rise]).unit 2).inbox = rise :: [] ∧
      (bound active .width .running [rise]).collector 2 = none ∧
      ((bound active .interval .armed [rise]).unit 2).arm.start = .edgeX ∧
      ((bound active .interval .armed [rise]).unit 2).obsX ≠ rise.high := by decide +kernel
theorem test_measuredEdge :
    after (.measuredEdge 2) (bound active .edges .running [rise]) (fun t => (t.unit 2).c == 1 && (t.unit 2).a == 0x120) = true ∧
    after (.measuredEdge 2) (bound active .interval .armed [rise])
      (fun t => (t.unit 2).state == .running && (t.unit 2).startStamp == 0x120) = true := by decide +kernel
theorem witness_MeasuredEdge_collect :
    ((bound (flying (.collect 1)) .interval .running [{ rise with signal := .sense1 }]).unit 2).binding = some (3, 1) ∧
      Flying (bound (flying (.collect 1)) .interval .running [{ rise with signal := .sense1 }]) 3 (flight (.collect 1) false)
        (.collect 1) ∧
      ((bound (flying (.collect 1)) .interval .running [{ rise with signal := .sense1 }]).unit 2).obsY ≠ rise.high :=
  ⟨by decide +kernel, ⟨rfl, rfl⟩, by decide +kernel⟩
theorem test_measuredEdge_collect :
    after (.measuredEdge 2) (bound (flying (.collect 1)) .interval .running [{ rise with signal := .sense1 }])
      (fun t => (t.ctx 3).posting == .ordinary .ok true .halt && (t.unit 2) == MeasUnit.initial) = true := by decide +kernel
theorem witness_WindowAndGate :
    ((bound active .interval .armed []).unit 2).window = some 0 ∧ ((bound active .frequency .running []).unit 2).gate = some 0 ∧
      (bound active .interval .armed []).collector 2 = none ∧ (bound (flying (.collect 1)) .frequency .running []).waitList = [] := by
  decide +kernel
theorem test_windowExpiry : after (.windowExpiry 2) (bound active .interval .armed [])
    (fun t => (t.unit 2).completion == .noStart && (t.unit 2).state == .done) = true := by decide +kernel
theorem test_gateEnd : after (.gateEnd 2) (bound (flying (.collect 1)) .frequency .running [])
    (fun t => (t.ctx 3).posting == .ordinary .ok true .halt && (t.unit 2) == MeasUnit.initial) = true := by decide +kernel
theorem test_windowExpiry_collect :
    after (.windowExpiry 2) (bound (flying (.collect 1)) .interval .armed [])
      (fun t => (t.ctx 3).posting == .ordinary .noEdge true .halt && (t.unit 2) == MeasUnit.initial) = true ∧
    after (.windowExpiry 2) (bound (flying (.collect 1)) .edges .running [])
      (fun t => (t.ctx 3).posting == .ordinary .ok true .halt) = true := by decide +kernel
theorem witness_Deadlines :
    ((withCtx { (stepCtx (.pause 5) false) with state := .waitingUnit, deadline := some 0 }).ctx 3).deadline = some 0 ∧
      (bound (flying (.collect 1)) .interval .armed []).slotUnit 3 1 = some 2 ∧
      ((flying (.collect 1)).ctx 3).step = some (flight (.collect 1) false) := by decide +kernel
theorem test_noUnit : after (.noUnit 3) (withCtx { (stepCtx (.pause 5) false) with state := .waitingUnit, deadline := some 0 })
    (fun t => (t.ctx 3).posting == .ordinary .noUnit true .halt) = true := by decide +kernel
theorem test_collectTimeout : after (.collectTimeout 3) (bound (flying (.collect 1)) .interval .armed [])
    (fun t => (t.ctx 3).posting == .ordinary .collectTimeout true .halt && (t.unit 2) == MeasUnit.initial) = true := by
  decide +kernel

/-! ### Cohorts and sync lines -/

/-- Cohort 2 with these stations live, and one arrival of station 5. -/
def cohorted (s : State) (live : List StationId) (arrived : List Arrival) (binding : Option Line) (ready : Bool) : State :=
  s.setCohort 2 { live := live, arrived := arrived, binding := binding, ready := ready, generation := 6 }

/-- Station 5's arrival. -/
def arrival5 : Arrival := { station := 5, channel := some 0, delay := 0, width := 9 }

/-- Station 3 of cohort 2 has dispatched a BARRIER. -/
def atGate (line : Option Line) : State :=
  withCtx { stepCtx (.barrier line none 0 1) true with cohort := some 2 }

/-- Station 5 stands at the barrier of cohort 2. -/
def with5 (s : State) : State :=
  s.setCtx 5 { stepCtx (.barrier none (some 0) 0 9) false with state := .atBarrier, cohort := some 2, deadline := some 0 }

/-- Station 5 stands at the barrier on line A, in use and in a drive state, and station 3 has dispatched its BARRIER. -/
def lineBound (d : Drive) : State :=
  cohorted (with5 { atGate (some .a) with
    ctl := { active.ctl with useA := true },
    lineA := { active.lineA with drive := d, filter := Filter.settled false } })
    [3, 5] [arrival5] (some .a) false

theorem witness_Barrier_refused :
    ((handed (.barrier none none 0 1)).ctx 3).cohort = none ∧ ((atGate (some .a)).ctx 3).cohort = some 2 ∧
      (atGate (some .a)).ctl.useFlag .a = false ∧
      ((cohorted (atGate none) [3, 5] [arrival5] (some .a) false).cohort 2).binding ≠ none := by decide +kernel
theorem witness_Barrier_arrives :
    ((cohorted (atGate none) [3, 5] [] none false).cohort 2).arrived = [] ∧
      ∃ m ∈ ((cohorted (atGate none) [3, 5] [] none false).cohort 2).live, m ≠ 3 := by decide +kernel
theorem test_barrier :
    after (.barrier 3) (cohorted (atGate none) [3, 5] [] none false)
      (fun t => (t.ctx 3).state == .atBarrier && (t.ctx 3).deadline == some 60001) = true ∧
    after (.barrier 3) (cohorted (with5 (atGate none)) [3, 5] [arrival5] none false)
      (fun t => (t.ctx 3).state == .posting && (t.ctx 5).state == .posting && (t.cohort 2).generation == 7 &&
        (t.chan 5 0).state == .asserted) = true := by decide +kernel
theorem witness_Barrier_completesOnLine :
    ¬((∃ l, some Line.a = some l ∧ (lineBound .pull).ctl.useFlag l = false) ∨
        (((lineBound .pull).cohort 2).arrived ≠ [] ∧ ((lineBound .pull).cohort 2).binding ≠ some .a)) ∧
      (∀ m : StationId, m ∈ ((lineBound .pull).cohort 2).live ↔
        m = 3 ∨ ∃ a ∈ ((lineBound .pull).cohort 2).arrived, a.station = m) := by
  refine ⟨?_, by decide +kernel⟩
  rintro (⟨l, h, h'⟩ | ⟨_, h⟩)
  · cases h; revert h'; decide
  · exact h rfl
theorem test_barrier_completesOnLine :
    after (.barrier 3) (lineBound .pull)
      (fun t => (t.cohort 2).ready && t.lineA.drive == .open && (t.ctx 3).state == .atBarrier) = true ∧
    after (.barrier 3) (lineBound .hold) (fun t => (t.cohort 2).ready && t.lineA.drive == .hold) = true := by decide +kernel
theorem witness_CompleteRound :
    ((cohorted (with5 (atGate none)) [3, 5] [arrival5] none false).cohort 2).binding = none ∧
      (([arrival5] ++ [({ station := 3, channel := none, delay := 0, width := 1 } : Arrival)]).map Arrival.station).Nodup ∧
      ∀ m : StationId, m ∈ ((cohorted (with5 (atGate none)) [3, 5] [arrival5] none false).cohort 2).live ↔
        m ∈ ([arrival5] ++ [({ station := 3, channel := none, delay := 0, width := 1 } : Arrival)]).map Arrival.station := by
  decide +kernel
theorem witness_BarrierTimeout :
    ((with5 active).ctx 5).state = .atBarrier ∧ ((with5 active).ctx 5).deadline = some 0 ∧ ((with5 active).ctx 5).cohort = some 2 ∧
      ((cohorted (with5 active) [3, 5] [arrival5] none false).cohort 2).live.contains 5 = true := by decide +kernel
theorem test_barrierTimeout : after (.barrierTimeout 5) (cohorted (with5 active) [3, 5] [arrival5] none false)
    (fun t => (t.ctx 5).posting == .ordinary .barrierTimeout true .halt && (t.cohort 2).arrived == [] &&
      (t.cohort 2).live == [3, 5]) = true := by decide +kernel

/-- Line A in a drive state with edges and hold to be taken, a ready round of cohort 2 bound to it. -/
def lineReady (d : Drive) : State :=
  cohorted (with5 { active with
    ctl := { active.ctl with useA := true },
    lineA := { active.lineA with drive := d, hold := some 0, riseDue := true, fallDue := true,
                                 filter := Filter.settled false } })
    [5] [arrival5] (some .a) true

theorem witness_SyncRise :
    ((lineReady .open).line .a).riseDue = true ∧ (lineReady .open).ctl.state = .active ∧
      (lineReady .open).readyRounds .a = [2] ∧ (([arrival5] : List Arrival).map Arrival.station).Nodup ∧
      ({ active with lineA := { active.lineA with riseDue := true } } : State).readyRounds .a = [] := by decide +kernel
theorem test_syncRise : after (.syncRise .a) (lineReady .open)
    (fun t => t.lineA.drive == .hold && (t.cohort 2).generation == 7 && (t.ctx 5).state == .posting) = true := by
  decide +kernel
/-- Unit 2 of station 5 is ARMED with RELEASE on the channel the release pulses. -/
def releaseArmed : State :=
  (lineReady .open).setUnit 2 { MeasUnit.initial with
    state := .armed, binding := some (5, 0), arm := { measure .edges .release with x := .act 0 } }

theorem test_syncRise_startsReleaseUnits : after (.syncRise .a) releaseArmed
    (fun t => (t.unit 2).state == .running && (t.unit 2).startStamp == 0x123 && (t.unit 2).inbox.length == 1) = true := by
  decide +kernel
theorem test_timeoutKeepsDueRise :
    after (.barrierTimeout 5) { lineReady .open with
        lineA := { (lineReady .open).lineA with filter := { raw := true, accepted := false, cand := some 0 } } }
      (fun t => t.lineA.drive == .pull && t.lineA.filter.cand == some 0) = true := by decide +kernel
theorem witness_SyncFall :
    ((lineReady .pull).line .a).fallDue = true ∧ (lineReady .pull).releaseCondition .a = true ∧
      ((lineReady .pull).line .a).filter.accepted = false ∧
      ({ active with lineA := { active.lineA with drive := .pull, fallDue := true } } : State).releaseCondition .a = false := by
  decide +kernel
theorem test_syncFall : after (.syncFall .a) (lineReady .pull) (fun t => t.lineA.drive == .open) = true := by decide +kernel
theorem witness_SyncHoldEnd :
    ((lineReady .hold).line .a).drive = .hold ∧ ((lineReady .hold).line .a).hold = some 0 ∧
      (lineReady .hold).time.firstPeriod = false := by decide +kernel
theorem test_syncHoldEnd :
    after (.syncHoldEnd .a) { active with lineA := { active.lineA with drive := .hold, hold := some 0 } }
      (fun t => t.lineA.drive == .pull && !t.lineA.pin) = true := by decide +kernel

/-! ### Posting that waits for room, departures and joins -/

/-- Station 3 posts, and the queue is full of other requests. -/
def postingFull (p : Posting) : State :=
  { queued (List.replicate 16 (unsent .sweepRead 1536)) with pending := [] }.setCtx 3 (postingCtx p)

theorem witness_Posting_waits :
    ReportWaits (postingFull .skipped) 3 ∧ ¬ReportWaits (withCtx (postingCtx .skipped)) 3 ∧
      ((postingFull .skipped).ctx 3).backlog = none ∧ (postingFull .skipped).engine.inRoom (.outcome 3) = false :=
  ⟨.inr ⟨.inl rfl, by decide +kernel, .inl (by decide +kernel)⟩,
    fun h => by
      rcases h with ⟨_, h, _⟩ | ⟨_, _, h | h⟩
      · cases h
      · exact absurd h (by decide +kernel)
      · exact h rfl,
    rfl, by decide +kernel⟩
theorem test_retirement_waits :
    after (.retirement 3) (postingFull (.ordinary .noAnswer true (.skip 4)))
      (fun t => (t.ctx 3).posting == .reported .noAnswer (.skip 4) && (t.ctx 3).retired == 1 && (t.ctx 3).skipDebt == 0 &&
        t.engine.inRoom (.partHalf 3) && t.notice.attention == 8) = true ∧
    after (.retirement 3) (postingFull .skipped)
      (fun t => (t.ctx 3).posting == .reported .skipped .continue && (t.ctx 3).state == .posting) = true ∧
    after (.discarded 3) (postingFull (.discard 1))
      (fun t => (t.ctx 3).posting == .reported .discarded .continue && (t.ctx 3).retired == 1) = true := by decide +kernel
theorem witness_Posting_reported :
    .retirement 3 ∈ dueEvents (withCtx { postingCtx (.reported .noAnswer (.skip 4)) with taken := 0 }) ∧
      (withCtx (postingCtx (.reported .noAnswer (.skip 4)))).engine.inRoom (.partHalf 3) = false := by decide +kernel
theorem test_retirement_reported :
    after (.retirement 3) (withCtx { postingCtx (.reported .noAnswer (.skip 4)) with taken := 0 })
      (fun t => (t.ctx 3).state == .posting && (t.ctx 3).posting == .skipped && (t.ctx 3).skipDebt == 4 &&
        (t.ctx 3).taken == 1 && (t.ctx 3).retired == 0) = true := by decide +kernel
theorem test_retirement_sends :
    after (.retirement 3)
      { withCtx (postingCtx (.ordinary .ok true .halt)) with notice := { active.notice with mask := 8 } }
      (fun t => t.notice.writer == .sending && t.notice.count == 1 && !t.notice.pending) = true := by decide +kernel

/-- Station 3 of cohort 2 is live and has not arrived, station 5 stands at the barrier of a round with this binding. -/
def lastMissing (c : Context) (binding : Option Line) (d : Drive) : State :=
  cohorted (with5 { sweeping { c with cohort := some 2 } with
    ctl := { active.ctl with useA := true },
    lineA := { active.lineA with drive := d, filter := Filter.settled false } })
    [3, 5] [arrival5] binding false

theorem witness_Departure :
    ((lastMissing (readyCtx .ready .none) none .pull).ctx 3).cohort = some 2 ∧
      NotArrived (lastMissing (readyCtx .ready .none) none .pull) 3 ∧
      (lastMissing (readyCtx .ready .none) none .pull).waitList = [] ∧
      (∀ m : StationId, (m ∈ ((lastMissing (readyCtx .ready .none) none .pull).cohort 2).live ∧ m ≠ 3) ↔
        m ∈ ((lastMissing (readyCtx .ready .none) none .pull).cohort 2).arrived.map Arrival.station) ∧
      Cohort.ArrivedOnce ((lastMissing (readyCtx .ready .none) none .pull).cohort 2).arrived ∧
      ((lastMissing (readyCtx .ready .none) (some .a) .pull).cohort 2).binding = some .a := by
  unfold NotArrived Cohort.ArrivedOnce
  decide +kernel
theorem test_departure_retirement :
    after (.retirement 3) (lastMissing (postingCtx (.ordinary .noAnswer false .halt)) none .pull)
      (fun t => (t.ctx 3).halt == .stepFailed && (t.ctx 5).state == .posting && (t.cohort 2).live == [5] &&
        (t.cohort 2).arrived == [] && (t.cohort 2).generation == 7 && (t.chan 5 0).state == .asserted) = true ∧
    after (.retirement 3) (lastMissing (postingCtx (.ordinary .noAnswer false .halt)) (some .a) .pull)
      (fun t => (t.cohort 2).ready && (t.cohort 2).live == [5] && t.lineA.drive == .open) = true := by decide +kernel

/-- The directory in which station 3 has this host half, and station 5 is enabled as it stands. -/
def directoryWith5 (half : List Byte) : List Byte :=
  List.replicate 192 0 ++ padTo 32 half ++ List.replicate 96 0 ++ padTo 32 (handoverHalf 1) ++ List.replicate 1184 0

theorem lastMissing_states (m : StationId) (h : m ≠ 3) (h' : m ≠ 5) :
    ((lastMissing (readyCtx .ready .none) none .pull).ctx m).state = .idle := by revert m; decide +kernel
theorem directoryWith5_others (m : StationId) (h : m ≠ 3) (h' : m ≠ 5) :
    (observed (directoryWith5 stopHalf) m).enabled = false := by revert m; decide +kernel
theorem witness_Departure_still :
    OthersStill (lastMissing (readyCtx .ready .none) none .pull) 3 (directoryWith5 stopHalf) ∧
      SweepArrives (lastMissing (readyCtx .ready .none) none .pull) 9 0 (directoryWith5 stopHalf) (directoryWith5 stopHalf) ∧
      (∀ x ∈ (lastMissing (readyCtx .ready .none) none .pull).engine.queue, x.hasTag 9 = true → x.req.kind = .sweepRead) := by
  have five : ((lastMissing (readyCtx .ready .none) none .pull).ctx 5).state = .atBarrier := rfl
  refine ⟨⟨fun m h => ?_, fun m h hm => ?_⟩, ⟨rfl, by decide +kernel, _, _, rfl, rfl, rfl, rfl, rfl, rfl⟩, by decide +kernel⟩
  · by_cases h' : m = 5
    · subst h'
      exact .inr ⟨by decide +kernel, by decide +kernel, by decide +kernel, by decide +kernel, by decide +kernel⟩
    · exact .inl ⟨lastMissing_states m h h', directoryWith5_others m h h'⟩
  · by_cases h' : m = 5
    · subst h'
      decide +kernel
    · exact absurd (lastMissing_states m h h') hm
theorem witness_Departure_tallied : AllTallied (lastMissing (readyCtx .ready .none) none .pull) := by
  intro n
  by_cases h : n = 3
  · subst h; exact ⟨rfl, rfl, rfl⟩
  · by_cases h' : n = 5
    · subst h'; exact ⟨rfl, rfl, rfl⟩
    · have : (lastMissing (readyCtx .ready .none) none .pull).ctx n = Context.initial := by
        revert n; decide +kernel
      rw [this]; exact ⟨rfl, rfl, rfl⟩
theorem test_departure_sweep :
    after (.readCompletion 9 .success 0 (directoryWith5 stopHalf)) (lastMissing (readyCtx .ready .none) none .pull)
      (fun t => (t.ctx 3).halt == .stopRequest && (t.ctx 5).state == .posting && (t.cohort 2).generation == 7) = true ∧
    after (.readCompletion 9 .success 0 (directoryWith5 [])) (lastMissing (readyCtx .ready .none) (some .a) .pull)
      (fun t => (t.ctx 3).state == .idle && (t.cohort 2).ready && (t.cohort 2).live == [5]) = true := by decide +kernel

/-- Station 5 stands ready to be released on line A, and station 3 is in this context. -/
def readyRound (c : Context) : State :=
  cohorted (with5 (sweeping { c with cohort := some 2 })) [5] [arrival5] (some .a) true

/-- The host half of an enabled station of cohort 2, with its stop and resume counts. -/
def cohortHalf (stop resume : Byte) : List Byte :=
  [0, 0x40, 0, 0, 0, 0, 0, 0, 3, 1, 2, 0, 0, 0, 0, 0, stop, resume]

theorem witness_Joins :
    NotArrived (readyRound (readyCtx .idle .none)) 3 ∧ ((readyRound (readyCtx .idle .none)).ctx 3).step = none ∧
      (observed (directoryWith5 (cohortHalf 7 7)) 3).valid = true ∧
      ((readyRound (readyCtx .idle .none)).cohort 2).binding = some .a := by
  unfold NotArrived
  decide +kernel
theorem test_joins :
    after (.readCompletion 9 .success 0 (directoryWith5 (cohortHalf 0 0))) (readyRound (readyCtx .idle .none))
      (fun t => (t.ctx 3).state == .ready && (t.cohort 2).live == [3, 5] && !(t.cohort 2).ready) = true ∧
    after (.readCompletion 9 .success 0 (directoryWith5 (cohortHalf 0 7))) (readyRound (readyCtx .halted .stepFailed))
      (fun t => (t.ctx 3).state == .ready && (t.cohort 2).live == [3, 5] && !(t.cohort 2).ready) = true := by decide +kernel
theorem witness_SweepStops_bothCounts :
    (observed (directory (cohortHalf 7 7)) 3).stop ≠ ((sweeping (readyCtx .ready .none)).ctx 3).stopSeen ∧
      (observed (directory (cohortHalf 7 7)) 3).resume ≠ ((sweeping (readyCtx .ready .none)).ctx 3).resumeSeen ∧
      (observed (directory (cohortHalf 7 7)) 3).discard = false ∧ NotArrived (sweeping (readyCtx .ready .none)) 3 := by
  unfold NotArrived
  decide +kernel
theorem test_sweepStopsAndResumes :
    after (.readCompletion 9 .success 0 (directory (cohortHalf 7 7))) (sweeping { readyCtx .ready .none with skipDebt := 2 })
      (fun t => (t.ctx 3).state == .ready && (t.ctx 3).halt == .none && (t.ctx 3).skipDebt == 0 && (t.ctx 3).stopSeen == 7 &&
        (t.ctx 3).resumeSeen == 7 && t.notice.attention == 8) = true ∧
    after (.readCompletion 9 .success 0 (directory (cohortHalf 7 7))) (sweeping (stepCtx (.pause 5) false))
      (fun t => (t.ctx 3).pendingHalt == some .stopRequest && (t.ctx 3).stopSeen == 7 && (t.ctx 3).resumeSeen == 7) = true := by
  decide +kernel
theorem witness_SweepStops_absorbed :
    ¬Undisturbed (sweeping { postingCtx .skipped with pendingHalt := some .unseated }) 3 ∧
      ((sweeping { postingCtx .skipped with disabling := true }).ctx 3).disabling = true :=
  ⟨fun h => absurd h.2.1 (by decide +kernel), rfl⟩
theorem test_sweepAbsorbs :
    after (.readCompletion 9 .success 0 (directory (cohortHalf 7 7)))
      (sweeping { postingCtx .skipped with pendingHalt := some .unseated })
      (fun t => (t.ctx 3).pendingHalt == some .unseated && (t.ctx 3).stopSeen == 7 && (t.ctx 3).resumeSeen == 7 &&
        t.engine.inQueue (.partHalf 3)) = true ∧
    after (.readCompletion 9 .success 0 (directory (cohortHalf 7 7)))
      (sweeping { postingCtx .skipped with disabling := true, lastRead := 5 })
      (fun t => (t.ctx 3).disabling && (t.ctx 3).stopSeen == 7 && (t.ctx 3).lastRead == 5 && !(t.ctx 3).badMark) = true := by
  decide +kernel

/-- Stations 3 and 5 stand at the barrier of cohort 2, its round bound to line A. -/
def bothWait (ready : Bool) : State :=
  cohorted (with5 active) [3, 5] [{ station := 3, channel := none, delay := 0, width := 1 }, arrival5] (some .a) ready

theorem witness_BarrierTimeout_arrived :
    (∃ a ∈ ((bothWait true).cohort 2).arrived, a.station = 5) ∧ ((bothWait true).cohort 2).live.contains 5 = true ∧
      ((bothWait true).ctx 5).deadline = some 0 := by decide +kernel
theorem test_barrierTimeout_leavesRound : after (.barrierTimeout 5) (bothWait true)
    (fun t => (t.cohort 2).binding == some .a && !(t.cohort 2).ready && (t.cohort 2).arrived.length == 1) = true := by
  decide +kernel
theorem witness_SweepPeriod_quiet :
    (config 0).ctl.state = .config ∧ (config 0).ctl.run = false ∧ (inState .faulted).ctl.run = true ∧
      (inState .quiescing).ctl.state = .quiescing ∧ (4 : Word).getLsbD 1 = false ∧ (4 : Word).getLsbD 0 = false ∧
      .quiesce 4 1 ∈ controlRows 4 1 := by decide +kernel
theorem test_control_outsideActive :
    after (.quiesce 0x00070004 13) (config 0) (fun t => t.ctl.useA && t.ctl.period == 7 && t.ctl.state == .config) = true ∧
    after (.startRequest 0x00070005 1) (inState .quiescing)
      (fun t => t.ctl.useA && t.ctl.period == 1000 && t.ctl.state == .quiescing) = true := by decide +kernel
theorem witness_Quiesced :
    InStep (handed (.pause 5)) 3 (flight (.pause 5) true) ∧
      (∃ e ∈ (fetching 5 []).engine.queue, e.req.kind = .fetch 3 ∧ e.sent.isSome = true) ∧
      ((withCtx (readyCtx .ready .none)).ctx 3).state = .ready :=
  ⟨⟨rfl, .inl rfl⟩, ⟨_, .head _, rfl, rfl⟩, rfl⟩
theorem test_quiesce_stopsStep : after (.quiesce 0 1) (handed (.pause 5))
    (fun t => (t.ctx 3).posting == .ordinary .stopped true .halt && t.engine.inQueue (.outcome 3)) = true := by decide +kernel
theorem test_quiesceComplete_sends :
    after .quiesceComplete { quiesced .faulted with notice := { active.notice with mask := 0x80000000 } }
      (fun t => t.notice.writer == .sending && t.notice.count == 1) = true := by decide +kernel
theorem test_refclk_firstPeriod : (refclk State.reset).time.firstPeriod = false := by decide +kernel

/-! ### Steps ended from outside by their blocks, and sweep reads in several completions -/

/-- A sweep read that has got its first bytes; station 3 has a context. -/
def sweepingAfter (got : List Byte) (c : Context) : State := (queued [sentRead .sweepRead 1536 5 got]).setCtx 3 c

theorem witness_SweepArrives_several :
    SweepArrives (sweepingAfter (List.replicate 192 0) Context.initial) 9 192 ((directory enabledHalf).drop 192)
      (directory enabledHalf) :=
  ⟨rfl, by decide +kernel, _, _, rfl, rfl, rfl, rfl, by decide +kernel, by decide +kernel⟩
theorem test_sweepEnables_lastCompletion :
    after (.readCompletion 9 .success 192 ((directory enabledHalf).drop 192))
      (sweepingAfter (List.replicate 192 0) Context.initial)
      (fun t => (t.ctx 3).state == .ready && (t.ctx 3).base == 0x4000 && !t.sweep.inFlight) = true := by decide +kernel

/-- The supply of station 3 fails, or its seat opens, while its step is in flight. -/
def cutting (s : State) : State := powered (failing s) fun p => { p with evaluated := true, seated := true, run := 20 }

theorem witness_BlockCut :
    InStep (cutting (phaseEnd .send false)) 3 (flight (.query query) false) ∧ Undisturbed (cutting (phaseEnd .send false)) 3 ∧
      ((cutting (phaseEnd .send false)).st 3).link.state = .send ∧
      ((cutting (linked (flying (.query query)) fun l => { l with waiting := true })).st 3).link.state = .idle ∧
      (bound (cutting (flying (.collect 1))) .interval .running []).slotUnit 3 1 = some 2 ∧
      (bound (cutting (flying (.collect 1))) .interval .running []).waitList = [] :=
  ⟨⟨rfl, .inl rfl⟩, ⟨rfl, rfl, rfl⟩, rfl, rfl, by decide +kernel, rfl⟩
theorem test_trip_cutsLink :
    after (.tripAccepted 3) (cutting (phaseEnd .send false))
      (fun t => (t.st 3).link.state == .recover && (t.st 3).link.high && (t.st 3).link.wait == some 128) = true ∧
    after (.tripAccepted 3) (cutting (linked (flying (.query query)) fun l => { l with waiting := true }))
      (fun t => (t.st 3).link.state == .idle && !(t.st 3).link.waiting) = true ∧
    after (.quiesce 0 1) (phaseEnd .send false) (fun t => (t.st 3).link.state == .recover && (t.ctx 3).disabling) = true := by
  decide +kernel

/-- Station 3's attached PRESS of channel 1 is asserted. -/
def pressing : State :=
  channeled (withCtx { stepCtx (.press 1 0 7) false with
    step := some { flight (.press 1 0 7) false with attached := true } })
    { state := .asserted, timer := some 3, pulse := .press 7 true, shadow := none, stamp := 4 }

theorem test_cut_liftsAttachedPress :
    after (.tripAccepted 3) (cutting pressing) (fun t => t.chan 3 1 == Channel.initial) = true ∧
    after (.seatChange 3) (cutting pressing) (fun t => t.chan 3 1 == Channel.initial) = true := by decide +kernel
theorem test_stop_endsRamp :
    after (.readCompletion 9 .success 0 (directory stopHalf))
      (powered (sweeping { stepCtx (.supply true) false with exp := 3 }) fun p => { p with seated := true, supply := .ramping })
      (fun t => (t.st 3).power.supply == .off && !t.supplyEnable 3 && (t.ctx 3).pendingHalt == some .stopRequest) = true := by
  decide +kernel

/-- Station 5 waits for a unit, and every unit measures but unit 2, which station 3's COLLECT waits for. -/
def grantable : State :=
  let s := cutting (flying (.collect 1))
  { (s.setCtx 5 { stepCtx (.arm 0 (measure .edges .edgeX)) false with state := .waitingUnit }) with
    units := (s.units.map fun u => { u with state := .running }).set 2
      { MeasUnit.initial with state := .armed, binding := some (3, 1) },
    waitList := [{ station := 5, slot := 0, arm := measure .edges .edgeX, start := 5 }] }

theorem witness_BlockCut_grant :
    grantable.slotUnit 3 1 = some 2 ∧ (∀ v, (grantable.unit v).state ≠ .free) ∧
      (grantable.ctx 5).state = .waitingUnit ∧ grantable.ctl.state = .active := by decide +kernel
theorem test_cut_grantsCollectedUnit : after (.tripAccepted 3) grantable
    (fun t => (t.unit 2).binding == some (5, 0) && t.waitList == [] && (t.ctx 5).state == .posting) = true := by
  decide +kernel
theorem test_cut_waitingArm :
    after (.tripAccepted 3) (cutting sweepingArm) (fun t => t.waitList == [] && (t.ctx 3).state == .posting) = true := by
  decide +kernel

/-- Station 5, whose supply fails, stands with station 3 at the barrier of a ready round bound to line A, which is open. -/
def openRound : State :=
  let s := bothWait true
  let s := s.setPower 5 { (s.st 5).power with seated := true, supply := .on, tripRise := true }
  { s with ctl := { s.ctl with useA := true }, lineA := { s.lineA with drive := .open, filter := Filter.settled false } }

theorem witness_BlockCut_barrier :
    (∃ a ∈ (openRound.cohort 2).arrived, a.station = 5) ∧ (5 : StationId) ∈ (openRound.cohort 2).live ∧
      (openRound.ctx 5).cohort = some 2 := by decide +kernel
theorem test_cut_withdrawsArrival : after (.tripAccepted 5) openRound
    (fun t => !(t.cohort 2).ready && (t.cohort 2).live == [3, 5] && (t.cohort 2).arrived.length == 1 &&
      t.lineA.drive == .pull && !t.lineA.pin) = true := by decide +kernel
theorem test_barrier_waitsOnOpenLine :
    after (.barrier 3)
      (cohorted { atGate (some .a) with
        ctl := { active.ctl with useA := true }, lineA := { active.lineA with drive := .open, filter := Filter.settled false } }
        [3, 5] [] none false)
      (fun t => !(t.cohort 2).ready && t.lineA.drive == .pull && !t.lineA.pin) = true := by decide +kernel

/-- The ready round that station 3 joins, its line in use and open. -/
def openJoined (c : Context) : State :=
  { readyRound c with
    ctl := { active.ctl with useA := true }, lineA := { active.lineA with drive := .open, filter := Filter.settled false } }

theorem witness_Joins_line :
    ((openJoined (readyCtx .idle .none)).cohort 2).arrived ≠ [] ∧ ((openJoined (readyCtx .idle .none)).line .a).drive = .open ∧
      ((openJoined (readyCtx .idle .none)).ctx 3).state ≠ .ready := by decide +kernel
theorem test_joins_line : after (.readCompletion 9 .success 0 (directoryWith5 (cohortHalf 0 0))) (openJoined (readyCtx .idle .none))
    (fun t => t.lineA.drive == .pull && !t.lineA.pin && !(t.cohort 2).ready) = true := by decide +kernel

end Sys2Proof.Tests
end

section
/-! PROOFS. The frames on the probe line: the TAG byte (R65) and the check byte (R66). -/

namespace Sys2Proof.Proofs

open Sys2Proof.Machine

/-! ### The TAG byte (R65) -/

/-- Check bits added at places 6 and 7 of a sum are bits put in front of the tag. -/
theorem ofNat_add_checkBits (t : BitVec 6) (b6 b7 : Bool) :
    BitVec.ofNat 8 (t.toNat + (if b6 then 64 else 0) + (if b7 then 128 else 0)) =
      BitVec.ofBool b7 ++ (BitVec.ofBool b6 ++ t) := by
  have ht : t.toNat < 2 ^ 6 := t.isLt
  have low : (BitVec.ofBool b6 ++ t).toNat = b6.toNat * 64 + t.toNat := by
    rw [BitVec.toNat_append, ← Nat.shiftLeft_add_eq_or_of_lt ht, BitVec.toNat_ofBool, Nat.shiftLeft_eq]
  apply BitVec.eq_of_toNat_eq
  rw [BitVec.toNat_append, ← Nat.shiftLeft_add_eq_or_of_lt (BitVec.isLt _), low, BitVec.toNat_ofBool, Nat.shiftLeft_eq,
    BitVec.toNat_ofNat]
  cases b6 <;> cases b7 <;> simp <;> omega

/-- The TAG byte from the most significant bit on: the two check bits, then the six tag bits. -/
theorem tagByte_eq_append (tag : Nat) :
    tagByte tag =
      BitVec.ofBool (!(tag.testBit 0 ^^ tag.testBit 1 ^^ tag.testBit 4)) ++
        (BitVec.ofBool (tag.testBit 0 ^^ tag.testBit 2 ^^ tag.testBit 3 ^^ tag.testBit 5) ++ BitVec.ofNat 6 tag) := by
  have bit {i : Nat} (hi : i < 6) : (BitVec.ofNat 6 tag).getLsbD i = tag.testBit i := by
    rw [BitVec.getLsbD_ofNat, decide_eq_true hi, Bool.true_and]
  rw [← ofNat_add_checkBits, ← bit (i := 0) (by decide), ← bit (i := 1) (by decide), ← bit (i := 2) (by decide),
    ← bit (i := 3) (by decide), ← bit (i := 4) (by decide), ← bit (i := 5) (by decide)]
  rfl

theorem tagByte_getLsbD_tag (tag : Nat) {i : Nat} (hi : i < 6) : (tagByte tag).getLsbD i = tag.testBit i := by
  rw [tagByte_eq_append, BitVec.getLsbD_append, if_pos (by omega), BitVec.getLsbD_append, if_pos hi,
    BitVec.getLsbD_ofNat, decide_eq_true hi, Bool.true_and]

theorem tagByte_getLsbD_six (tag : Nat) :
    (tagByte tag).getLsbD 6 = (tag.testBit 0 ^^ tag.testBit 2 ^^ tag.testBit 3 ^^ tag.testBit 5) := by
  rw [tagByte_eq_append, BitVec.getLsbD_append, if_pos (by decide), BitVec.getLsbD_append, if_neg (by decide),
    BitVec.getLsbD_ofBool]
  rfl

theorem tagByte_getLsbD_seven (tag : Nat) :
    (tagByte tag).getLsbD 7 = !(tag.testBit 0 ^^ tag.testBit 1 ^^ tag.testBit 4) := by
  rw [tagByte_eq_append, BitVec.getLsbD_append, if_neg (by decide), BitVec.getLsbD_ofBool]
  rfl

/-- Byte 1 of a query is the TAG byte, with raw check or without, in either check style. -/
theorem queryFrame_getElem?_one (q : QuerySpec) (short : Bool) : (queryFrame q short)[1]? = some (tagByte q.tag) := rfl

/-- The code of a complete answer compares the status alone and does not read the tag. -/
theorem completeCode_tag (q : QuerySpec) (tag : Nat) (l : Link) :
    completeCode (some { q with tag := tag }) l = completeCode (some q) l := rfl

/-- Settles O12: the TAG byte is the concatenation of the check bits and the tag, read bit by bit. -/
theorem tagByteCarriesTagAndCheckBits : Obligations.TagByteCarriesTagAndCheckBits :=
  ⟨fun tag _ => ⟨fun _ hi => tagByte_getLsbD_tag tag hi, tagByte_getLsbD_six tag, tagByte_getLsbD_seven tag⟩,
    queryFrame_getElem?_one, completeCode_tag⟩

/-! ### The check byte (R66) -/

/-- One addition of the running sum stays in 0..255. -/
theorem checkAdd_le {sum : Nat} (h : sum ≤ 255) (b : Byte) : checkAdd sum b ≤ 255 := by
  have hb : b.toNat < 256 := b.isLt
  unfold checkAdd
  split <;> omega

/-- The running sum is in 0..255 after every byte. -/
theorem foldl_checkAdd_le (bs : List Byte) {sum : Nat} (h : sum ≤ 255) : bs.foldl checkAdd sum ≤ 255 := by
  induction bs generalizing sum with
  | nil => exact h
  | cons b bs ih => exact ih (checkAdd_le h b)

/-- The check byte holds 255 minus the running sum in full: nothing is lost to its eight bits. -/
theorem checkByte_toNat (bs : List Byte) : (checkByte bs).toNat = 255 - bs.foldl checkAdd 0 := by
  rw [checkByte, BitVec.toNat_ofNat, Nat.mod_eq_of_lt (by omega)]

/-- A query carries the raw check byte, or the one computed over the bytes its check style names. -/
theorem queryFrame_eq (q : QuerySpec) (short : Bool) :
    queryFrame q short =
      [0x96, tagByte q.tag, BitVec.ofNat 8 q.payload.length] ++ q.payload ++
        [if q.rawCheck then q.check
          else if short then checkByte q.payload
          else checkByte ([tagByte q.tag, BitVec.ofNat 8 q.payload.length] ++ q.payload)] := by
  cases short <;> rfl

/-- An answer is checked over the bytes its check style names. -/
theorem answerCheck_eq (l : Link) :
    answerCheck l = if l.copy.short then checkByte l.buffer else checkByte ([l.status, l.len] ++ l.buffer) :=
  apply_ite checkByte ..

/-- Settles O13, by the invariant that the running sum never leaves 0..255. -/
theorem checkByteCoversTheNamedBytes : Obligations.CheckByteCoversTheNamedBytes :=
  ⟨fun bs => ⟨foldl_checkAdd_le bs (Nat.zero_le 255), checkByte_toNat bs⟩, rfl, queryFrame_eq, answerCheck_eq⟩

end Sys2Proof.Proofs
end

section
/-! PROOFS. The attention bits: a write to ATTENTION under its byte enables (R178, R184) and a setting event (R177, R179). -/

namespace Sys2Proof.Proofs

open Sys2Proof.Machine Sys2Proof.Laws

/-! ### Byte enables (R184) -/

/-- The bits of the bytes that a write enables: the mask inside `mergeBytes`. -/
def enabledBits (be : BitVec 4) : Word :=
  (if be.getLsbD 0 then 0xFF else 0) ||| (if be.getLsbD 1 then 0xFF00 else 0) |||
    (if be.getLsbD 2 then 0xFF0000 else 0) ||| (if be.getLsbD 3 then 0xFF000000 else 0)

theorem mergeBytes_eq (be : BitVec 4) (new old : Word) :
    mergeBytes be new old = (new &&& enabledBits be) ||| (old &&& ~~~enabledBits be) := rfl

/-- The mask of byte `k` holds the bits of that byte. -/
theorem byteMask_getLsbD (k : Nat) {i : Nat} (hi : i < 32) :
    (0xFF#32 <<< (8 * k)).getLsbD i = decide (i / 8 = k) := by
  have ones : (0xFF#32).getLsbD (i - 8 * k) = decide (i - 8 * k < 8) := by
    rw [BitVec.getLsbD_ofNat, show 0xFF = 2 ^ 8 - 1 from rfl, Nat.testBit_two_pow_sub_one,
      decide_eq_true (by omega : i - 8 * k < 32), Bool.true_and]
  rw [BitVec.getLsbD_shiftLeft, ones, Bool.eq_iff_iff]
  simp only [Bool.and_eq_true, Bool.not_eq_true', decide_eq_true_eq, decide_eq_false_iff_not]
  omega

/-- The mask of byte `k`, put in when `b` is set. -/
theorem ite_byteMask_getLsbD (b : Bool) (k : Nat) {i : Nat} (hi : i < 32) :
    (if b then 0xFF#32 <<< (8 * k) else 0).getLsbD i = (b && decide (i / 8 = k)) := by
  cases b
  · exact BitVec.getLsbD_zero
  · exact byteMask_getLsbD k hi

/-- A bit is enabled when its byte is. -/
theorem enabledBits_getLsbD (be : BitVec 4) {i : Nat} (hi : i < 32) :
    (enabledBits be).getLsbD i = be.getLsbD (i / 8) := by
  have bit : (enabledBits be).getLsbD i =
      ((be.getLsbD 0 && decide (i / 8 = 0)) || (be.getLsbD 1 && decide (i / 8 = 1)) ||
        (be.getLsbD 2 && decide (i / 8 = 2)) || (be.getLsbD 3 && decide (i / 8 = 3))) := by
    simp only [← ite_byteMask_getLsbD _ _ hi, ← BitVec.getLsbD_or]
    rfl
  have byte : i / 8 = 0 ∨ i / 8 = 1 ∨ i / 8 = 2 ∨ i / 8 = 3 := by omega
  rcases byte with h | h | h | h <;> simp [bit, h]

/-- A written register bit is the new one where its byte is enabled and the old one elsewhere. -/
theorem mergeBytes_getLsbD (be : BitVec 4) (new old : Word) {i : Nat} (hi : i < 32) :
    (mergeBytes be new old).getLsbD i = bitWritten new be old i := by
  rw [mergeBytes_eq, BitVec.getLsbD_or, BitVec.getLsbD_and, BitVec.getLsbD_and, BitVec.getLsbD_not,
    enabledBits_getLsbD be hi, bitWritten]
  cases be.getLsbD (i / 8) <;> simp [hi]

/-! ### The attention bits (R177 to R179) -/

theorem exec_attentionClear (w : Word) (be : BitVec 4) (s : State) :
    exec (.attentionClear w be) s = .next (clearAttention w be s) := rfl

/-- A bit stays set unless its byte is enabled and it is written as 1. -/
theorem clearAttention_getLsbD (w : Word) (be : BitVec 4) (s : State) {i : Nat} (hi : i < 32) :
    (clearAttention w be s).notice.attention.getLsbD i =
      (s.notice.attention.getLsbD i && !(be.getLsbD (i / 8) && w.getLsbD i)) := by
  rw [clearAttention, BitVec.getLsbD_and, BitVec.getLsbD_not, mergeBytes_getLsbD be w 0 hi, bitWritten]
  cases be.getLsbD (i / 8) <;> simp [hi]

/-- The bit of an event that has just happened is set. -/
theorem setAttention_getLsbD_self (s : State) {i : Nat} (hi : i < 32) :
    (setAttention i s).notice.attention.getLsbD i = true := by
  rw [setAttention_bit i i s hi, decide_eq_true rfl, Bool.or_true]

/-- A bit that goes from clear to set sets the pending flag where it is admitted. -/
theorem setAttention_notice_pending (i : Nat) (s : State) :
    (setAttention i s).notice.pending =
      (s.notice.pending || (!s.notice.attention.getLsbD i && s.notice.mask.getLsbD i)) := by
  unfold setAttention
  split
  case isTrue wasSet => simp [wasSet]
  case isFalse wasClear => simp [wasClear]

/-- Settles O23, bit by bit: a bit that is written as 1 in an enabled byte is clear after the write whatever it was before,
and a bit that an event sets is set after the event. -/
theorem attentionWriteClearsOnes : Obligations.AttentionWriteClearsOnes := by
  intro s w be
  rw [exec_attentionClear]
  refine completes_next ⟨rfl, ?bits, ?eventLast, ?pending, ?writeLast⟩
  case bits => exact fun i hi => clearAttention_getLsbD w be s hi
  case eventLast => exact fun i hi => setAttention_getLsbD_self _ hi
  case pending => exact fun i _ => setAttention_notice_pending i _
  case writeLast =>
    intro i hi enabled one
    rw [exec_attentionClear]
    apply completes_next
    rw [clearAttention_getLsbD w be _ hi, enabled, one, Bool.and_self, Bool.not_true, Bool.and_false]

end Sys2Proof.Proofs
end

section
/-! PROOFS. What the stations and the shared blocks can do to the rest of the part: a property of states that is kept by their
few ways of touching it is kept by every one of their operations and by every command they answer. -/

namespace Sys2Proof.Proofs

open Sys2Proof.Machine Sys2Proof.Laws

/-! ### Properties kept by work -/

/-- A fold of operations that keep a property keeps it. -/
theorem foldl_keeps_prop {P : State → Prop} {α : Type} {f : State → α → State}
    (hf : ∀ {t : State} (a : α), P t → P (f t a)) (l : List α) {s : State} (h : P s) : P (l.foldl f s) := by
  induction l generalizing s with
  | nil => exact h
  | cons a l ih => exact ih (hf a h)

/-- The property is kept by each way in which an act of one of the stations `p` touches the part: the station itself and its
edges, an offer of a request other than a part-half write, the queuing of a part-half write, a fetch read withdrawn from the
room wait list, the station's units and its place in the wait list, the arbiter, and the sets of its cohort. -/
structure KeptByActs (p : StationId → Prop) (P : State → Prop) : Prop where
  setSt {s : State} {n : StationId} {x : Station} (h : P s) (hn : p n) : P (s.setSt n x)
  edge {s : State} {n : StationId} {sig : Signal} {high : Bool} (h : P s) (hn : p n) : P (emitEdge n sig high s)
  offer {s : State} {r : Request} (h : P s) (hr : ∀ n, r.kind ≠ .partHalf n) : P (offer r s)
  partHalf {s : State} {n : StationId} (h : P s) (hn : p n) : P (queuePartHalf n s)
  withdraw {s : State} {n : StationId} (h : P s) (hn : p n) :
    P { s with engine := { s.engine with room := s.engine.room.filter fun r => r.kind != .fetch n } }
  abandonUnits {s : State} {n : StationId} (h : P s) (hn : p n) : P (abandonUnits n s)
  abandonCollect {s : State} {n : StationId} {slot : SlotId} (h : P s) (hn : p n) : P (abandonCollect n slot s)
  leaveList {s : State} {n : StationId} (h : P s) (hn : p n) :
    P { s with waitList := s.waitList.filter fun e => e.station != n }
  arbitrate {s : State} (h : P s) : P (arbitrate s)
  joinLive {s : State} {n : StationId} (h : P s) (hn : p n) : P (joinLive n s)
  leaveLive {s : State} {n : StationId} (h : P s) (hn : p n) : P (leaveLive n s)
  leaveArrived {s : State} {n : StationId} (h : P s) (hn : p n) : P (leaveArrived n s)

/-- The property is kept by the acts of the stations `p` and by their attention bits. -/
structure KeptByHalts (p : StationId → Prop) (P : State → Prop) : Prop extends KeptByActs p P where
  attention {s : State} {n : StationId} (h : P s) (hn : p n) : P (setAttention n.1 s)

namespace KeptByActs

variable {p : StationId → Prop} {P : State → Prop} (K : KeptByActs p P) {s : State}

include K

/-! ### The acts of a station -/

theorem setCtx (h : P s) {n : StationId} {x : Context} (hn : p n) : P (s.setCtx n x) := K.setSt h hn

theorem setLink (h : P s) {n : StationId} {x : Link} (hn : p n) : P (s.setLink n x) := K.setSt h hn

theorem setPower (h : P s) {n : StationId} {x : Power} (hn : p n) : P (s.setPower n x) := K.setSt h hn

theorem stationOffer (h : P s) {n : StationId} {b : Backlog} (hn : p n) : P (stationOffer n b s) := by
  unfold Machine.stationOffer
  split
  · exact K.setCtx h hn
  · exact K.offer (K.setCtx h hn) (by cases b <;> simp [stationRequest])

theorem endStep (h : P s) {n : StationId} {code : Code} {result : List Byte} (hn : p n) : P (endStep n code result s) := by
  unfold Machine.endStep
  split
  · exact h
  · exact K.stationOffer (K.setCtx h hn) hn

theorem setChan (h : P s) {n : StationId} {c : ChannelId} {x : Channel} (hn : p n) : P (setChan n c x s) := by
  unfold Machine.setChan
  dsimp only
  split
  · exact K.setSt h hn
  · exact K.edge (K.setSt h hn) hn

theorem liftAll (h : P s) {n : StationId} (hn : p n) : P (liftAll n s) := by
  unfold Machine.liftAll
  exact foldl_keeps_prop (P := P) (fun _ h => K.setChan h hn) _ h

theorem putLink (h : P s) {n : StationId} {l : Link} (hn : p n) : P (putLink n l s) := by
  unfold Machine.putLink
  dsimp only
  split
  · exact K.setLink h hn
  · exact K.edge (K.setLink h hn) hn

theorem cutLink (h : P s) {n : StationId} (hn : p n) : P (cutLink n s) := by
  unfold Machine.cutLink
  split
  case h_1 | h_2 | h_3 | h_4 | h_5 => exact K.setLink (K.putLink h hn) hn
  all_goals exact K.setLink h hn

theorem setSupply (h : P s) {n : StationId} {x : SupplyState} (hn : p n) : P (setSupply n x s) := by
  unfold Machine.setSupply
  dsimp only
  split
  · exact h
  · exact K.partHalf (K.setPower h hn) hn

theorem cutTaken (h : P s) {n : StationId} {st : InFlight} (hn : p n) : P (cutTaken n st s) := by
  unfold Machine.cutTaken
  split
  · exact K.cutLink h hn
  · split
    · exact K.setChan h hn
    · exact h
  · split
    · exact K.setSupply h hn
    · exact h
  · exact K.leaveList h hn
  · exact K.abandonCollect h hn
  · exact K.leaveArrived h hn
  · exact h

theorem cutBlock (h : P s) {n : StationId} {st : InFlight} (hn : p n) : P (cutBlock n st s) := by
  unfold Machine.cutBlock Machine.cutHanded
  split
  · split
    · exact K.abandonCollect h hn
    · exact h
  · exact K.cutTaken h hn

theorem cutFromOutside (h : P s) {n : StationId} {code : Code} (hn : p n) : P (cutFromOutside n code s) := by
  unfold Machine.cutFromOutside
  split
  · exact h
  · exact K.endStep (K.cutBlock h hn) hn

theorem arriveIdle (h : P s) {n : StationId} (hn : p n) : P (arriveIdle n s) := K.partHalf (K.setCtx h hn) hn

end KeptByActs

namespace KeptByHalts

variable {p : StationId → Prop} {P : State → Prop} (K : KeptByHalts p P) {s : State}

include K

/-! ### Halting, the posting and the observation -/

theorem enterHalted (h : P s) {n : StationId} {r : HaltReason} (hn : p n) : P (enterHalted n r s) :=
  K.partHalf (K.attention (K.leaveLive (K.arbitrate (K.abandonUnits (K.liftAll (K.setCtx h hn) hn) hn)) hn) hn) hn

theorem fetchFailed (h : P s) {n : StationId} (hn : p n) : P (fetchFailed n s) := by
  unfold Machine.fetchFailed
  dsimp only
  split
  · exact K.arriveIdle (K.setCtx h hn) hn
  · exact K.enterHalted (K.setCtx h hn) hn

theorem fetchEnded (h : P s) {n : StationId} (hn : p n) : P (fetchEnded n s) := by
  unfold Machine.fetchEnded
  split
  · exact K.fetchFailed h hn
  · exact h

theorem offerFetch (h : P s) {n : StationId} (hn : p n) : P (offerFetch n s) := by
  unfold Machine.offerFetch
  split
  · exact K.stationOffer h hn
  · exact K.fetchEnded (K.setCtx h hn) hn

theorem offerBacklog (h : P s) {n : StationId} (hn : p n) : P (offerBacklog n s) := by
  unfold Machine.offerBacklog
  split
  · exact h
  · exact K.offerFetch h hn
  all_goals exact K.stationOffer h hn

theorem abortFetch (h : P s) {n : StationId} (hn : p n) : P (abortFetch n s) := by
  unfold Machine.abortFetch
  split
  · exact h
  · exact K.fetchFailed (K.withdraw (K.setCtx h hn) hn) hn

theorem haltFromOutside (h : P s) {n : StationId} {r : HaltReason} {code : Code} (hn : p n) : P (haltFromOutside n r code s) := by
  unfold Machine.haltFromOutside
  dsimp only
  split
  · exact h
  · split
    case h_1 | h_2 => exact h
    case h_3 => exact K.enterHalted h hn
    case h_4 => exact K.abortFetch (K.setCtx h hn) hn
    case h_8 => exact K.setCtx h hn
    all_goals exact K.arbitrate (K.cutFromOutside (K.setCtx h hn) hn)

theorem disablePhase (h : P s) {n : StationId} (hn : p n) : P (disablePhase n s) := by
  unfold Machine.disablePhase
  split
  case h_1 | h_2 => exact h
  case h_3 | h_4 => exact K.arriveIdle h hn
  case h_5 => exact K.abortFetch h hn
  all_goals exact K.cutFromOutside h hn

theorem takeDisable (h : P s) {n : StationId} (hn : p n) : P (takeDisable n s) := by
  unfold Machine.takeDisable
  split
  · exact h
  · exact K.arbitrate (K.abandonUnits (K.disablePhase (K.liftAll (K.leaveLive (K.setSupply (K.setCtx h hn) hn) hn) hn) hn) hn)

theorem takeNext (h : P s) {n : StationId} (hn : p n) : P (takeNext n s) := by
  unfold Machine.takeNext
  split
  · exact K.setCtx h hn
  · split
    · exact K.offerFetch (K.setCtx h hn) hn
    · exact K.stationOffer (K.setCtx h hn) hn

theorem leavePosting (h : P s) {n : StationId} (hn : p n) : P (leavePosting n s) := by
  unfold Machine.leavePosting
  dsimp only
  split
  · exact K.arriveIdle h hn
  · split
    · exact K.enterHalted h hn
    · split
      · exact K.enterHalted h hn
      · exact K.takeNext h hn

theorem dispatch (h : P s) {n : StationId} {bs : List Byte} (hn : p n) : P (dispatch n bs s) := by
  unfold Machine.dispatch
  dsimp only
  split
  · split
    · exact K.endStep (K.setCtx h hn) hn
    · exact K.setCtx h hn
  · exact K.stationOffer (K.setCtx h hn) hn

theorem fetchCompleted (h : P s) {n : StationId} {bs : List Byte} (hn : p n) : P (fetchCompleted n bs s) := by
  unfold Machine.fetchCompleted
  split
  · split
    · exact K.fetchFailed h hn
    · exact K.dispatch h hn
  · exact h

theorem setupStep (h : P s) {n : StationId} {v : Settings} (hn : p n) : P (setupStep n v s) := by
  unfold Machine.setupStep
  split
  · exact K.endStep (K.setCtx h hn) hn
  · exact K.endStep h hn

theorem applyClass (h : P s) {n : StationId} {code : Code} {d : Disposition} (hn : p n) : P (applyClass n code d s) :=
  K.leavePosting (K.setCtx h hn) hn

theorem reportPosting (h : P s) {n : StationId} {code : Code} {d : Disposition} (hn : p n) : P (reportPosting n code d s) := by
  unfold Machine.reportPosting
  split
  · exact K.setCtx h hn
  · exact K.applyClass h hn

theorem retireOrdinary (h : P s) {n : StationId} {code : Code} {flag : Bool} {d : Disposition} (hn : p n) :
    P (retireOrdinary n code flag d s) := by
  have ht := K.partHalf (K.setCtx h (n := n) (x := { s.ctx n with retired := (s.ctx n).retired + 1 }) hn) hn
  cases flag with
  | false => exact K.reportPosting ht hn
  | true => exact K.reportPosting (K.attention ht hn) hn

theorem retire (h : P s) {n : StationId} (hn : p n) : P (retire n s) := by
  unfold Machine.retire
  split
  · exact K.retireOrdinary h hn
  · exact K.reportPosting (K.partHalf (K.setCtx h hn) hn) hn
  · exact K.leavePosting h hn
  · exact K.applyClass h hn
  all_goals exact h

theorem discardNext (h : P s) {n : StationId} {last : Half} (hn : p n) : P (discardNext n last s) := by
  unfold Machine.discardNext
  split
  · exact K.reportPosting (K.partHalf h hn) hn
  · exact K.stationOffer (K.setCtx h hn) hn

theorem retireDiscarded (h : P s) {n : StationId} (hn : p n) : P (retireDiscarded n s) := by
  unfold Machine.retireDiscarded
  split
  · exact K.discardNext (K.setCtx h hn) hn
  all_goals exact h

/-! ### The observation -/

theorem enable (h : P s) {n : StationId} {x : HostHalf} (hn : p n) : P (enable n x s) := by
  unfold Machine.enable Machine.enabled Machine.badEntry
  dsimp only
  split
  · exact K.partHalf (K.joinLive (K.setSt h hn) hn) hn
  · split
    · exact K.partHalf (K.setCtx h hn) hn
    · exact K.enterHalted (K.setCtx h hn) hn

theorem modeStep (h : P s) {n : StationId} {x : HostHalf} (hn : p n) : P (modeStep n x s) := by
  unfold Machine.modeStep
  split
  · split
    · exact K.enable h hn
    · exact h
  · exact K.takeDisable h hn

theorem stopStep (h : P s) {n : StationId} {x : HostHalf} (hn : p n) : P (stopStep n x s) := by
  unfold Machine.stopStep
  split
  · exact h
  · exact K.haltFromOutside (K.partHalf (K.setCtx h hn) hn) hn

theorem resumeStep (h : P s) {n : StationId} {x : HostHalf} (hn : p n) : P (resumeStep n x s) := by
  have ht := K.partHalf (K.setCtx h (n := n) (x := { s.ctx n with resumeSeen := x.resume }) hn) hn
  unfold Machine.resumeStep
  dsimp only
  split
  · exact h
  · split
    · split
      · exact K.enable ht hn
      · split
        · exact K.discardNext (K.joinLive (K.setCtx ht hn) hn) hn
        · exact K.partHalf (K.joinLive (K.setCtx ht hn) hn) hn
    · exact ht

theorem handoverStep (h : P s) {n : StationId} {x : HostHalf} (hn : p n) : P (handoverStep n x s) := by
  unfold Machine.handoverStep Machine.handoverPassed Machine.handoverFailed
  dsimp only
  split
  · exact h
  · split
    · split
      · exact K.takeNext (K.setCtx h hn) hn
      · exact K.setCtx h hn
    · split
      case h_1 => exact K.enterHalted h hn
      case h_7 | h_8 => exact h
      all_goals exact K.setCtx h hn

theorem observe (h : P s) {n : StationId} {bs : List Byte} (hn : p n) : P (observe n bs s) :=
  K.handoverStep (K.resumeStep (K.stopStep (K.modeStep h hn) hn) hn) hn

theorem observeAll (h : P s) {data : List Byte} (hp : ∀ n, p n) : P (observeAll data s) := by
  unfold Machine.observeAll
  exact foldl_keeps_prop (P := P) (fun n h => K.observe h (hp n)) _ h

theorem quiesceStation (h : P s) (n : StationId) (hn : p n) : P (quiesceStation s n) := by
  unfold Machine.quiesceStation
  dsimp only
  split
  · exact K.abortFetch (K.takeDisable h hn) hn
  · exact K.takeDisable h hn

/-! ### The trip and the unseat -/

theorem tripSupply (h : P s) {n : StationId} (hn : p n) : P (tripSupply n s) :=
  K.haltFromOutside (K.partHalf (K.setPower (K.setSupply h hn) hn) hn) hn

theorem unseat (h : P s) {n : StationId} (hn : p n) : P (unseat n s) := by
  unfold Machine.unseat
  split
  · exact K.haltFromOutside (K.setSupply h hn) hn
  · exact K.haltFromOutside h hn

end KeptByHalts

/-- The property reads nothing of the stations, units, wait list and cohorts, and is kept by each way in which the shared
operations of the stations `p` touch the rest of the part: a line that does not enter or leave OFF, an offer of a request
other than a part-half write, the queuing of a part-half write, and a fetch read withdrawn from the room wait list. -/
structure KeptBySharedOf (p : StationId → Prop) (P : State → Prop) : Prop where
  contents {s : State} (h : P s) (stations : Vector Station 24) (units : Vector MeasUnit 6) (waitList : List WaitEntry)
    (cohorts : Vector Cohort 8) :
    P { s with stations := stations, units := units, waitList := waitList, cohorts := cohorts }
  line {s : State} {l : Line} {x : SyncLine} (h : P s) (hx : x.drive = .off ↔ (s.line l).drive = .off) : P (s.setLine l x)
  offer {s : State} {r : Request} (h : P s) (hr : ∀ n, r.kind ≠ .partHalf n) : P (offer r s)
  partHalf {s : State} (h : P s) (n : StationId) (hn : p n) : P (queuePartHalf n s)
  withdraw {s : State} (h : P s) (n : StationId) (hn : p n) :
    P { s with engine := { s.engine with room := s.engine.room.filter fun r => r.kind != .fetch n } }

/-- The property is kept by the shared operations of the stations `p` and by their attention bits. -/
structure KeptByChangeOf (p : StationId → Prop) (P : State → Prop) : Prop extends KeptBySharedOf p P where
  attention {s : State} (h : P s) (n : StationId) (hn : p n) : P (setAttention n.1 s)

/-- The property is kept by the shared operations of every station. -/
abbrev KeptByShared (P : State → Prop) : Prop := KeptBySharedOf (fun _ => True) P

/-- The property is kept by the shared operations and the attention bits of every station. -/
abbrev KeptByChange (P : State → Prop) : Prop := KeptByChangeOf (fun _ => True) P

/-- The property is kept by all that the stations do, the begin of a send included. -/
structure KeptByWork (P : State → Prop) : Prop extends KeptByChangeOf (fun _ => True) P where
  kick {s : State} (h : P s) : P (noticeKick s)

namespace KeptBySharedOf

variable {p : StationId → Prop} {P : State → Prop} (K : KeptBySharedOf p P) {s : State}

/-- A fold of operations that keep the property keeps it. -/
theorem foldl (_ : KeptBySharedOf p P) {α : Type} {f : State → α → State} (hf : ∀ {t : State} (a : α), P t → P (f t a))
    (l : List α) (h : P s) : P (l.foldl f s) := foldl_keeps_prop hf l h

include K

/-! ### Shared operations -/

theorem setSt (h : P s) {n : StationId} {x : Station} : P (s.setSt n x) := K.contents h ..

theorem setCtx (h : P s) {n : StationId} {x : Context} : P (s.setCtx n x) := K.setSt h

theorem setLink (h : P s) {n : StationId} {x : Link} : P (s.setLink n x) := K.setSt h

theorem setPower (h : P s) {n : StationId} {x : Power} : P (s.setPower n x) := K.setSt h

theorem setUnit (h : P s) {u : UnitId} {x : MeasUnit} : P (s.setUnit u x) := K.contents h ..

theorem units (h : P s) {x : Vector MeasUnit 6} : P { s with units := x } := K.contents h ..

theorem waitList (h : P s) {x : List WaitEntry} : P { s with waitList := x } := K.contents h ..

theorem setCohort (h : P s) {k : CohortId} {x : Cohort} : P (s.setCohort k x) := K.contents h ..

theorem stationOffer (h : P s) {n : StationId} {b : Backlog} : P (stationOffer n b s) := by
  unfold Machine.stationOffer
  split
  · exact K.setCtx h
  · exact K.offer (K.setCtx h) (by cases b <;> simp [stationRequest])

theorem endStep (h : P s) {n : StationId} {code : Code} {result : List Byte} : P (endStep n code result s) := by
  unfold Machine.endStep
  split
  · exact h
  · exact K.stationOffer (K.setCtx h)

theorem markTaken (h : P s) {n : StationId} {st : InFlight} : P (markTaken n st s) := K.setCtx h

theorem markWaiting (h : P s) {n : StationId} {st : InFlight} : P (markWaiting n st s) := K.setCtx h

theorem emitEdge (h : P s) {n : StationId} {sig : Signal} {high : Bool} : P (emitEdge n sig high s) := K.units h

/-! ### Channels -/

theorem putChan (h : P s) {n : StationId} {c : ChannelId} {x : Channel} : P (s.putChan n c x) := K.setSt h

theorem setChan (h : P s) {n : StationId} {c : ChannelId} {x : Channel} : P (setChan n c x s) := by
  unfold Machine.setChan
  dsimp only
  split
  · exact K.putChan h
  · exact K.emitEdge (K.putChan h)

theorem liftAll (h : P s) {n : StationId} : P (liftAll n s) := K.foldl (fun _ h => K.setChan h) _ h

theorem pressStep (h : P s) {n : StationId} {st : InFlight} {c : ChannelId} {delay width : Nat} :
    P (pressStep n st c delay width s) := by
  unfold Machine.pressStep
  dsimp only
  split
  · split
    · exact K.setChan (K.markTaken h)
    · exact K.endStep (K.setChan (K.markTaken h))
  all_goals exact K.endStep h

theorem tapStep (h : P s) {n : StationId} {c : ChannelId} {period width count : Nat} :
    P (tapStep n c period width count s) := by
  unfold Machine.tapStep
  split
  case h_1 => exact K.endStep (K.setChan h)
  case h_2 | h_3 => exact K.endStep (K.putChan h)
  all_goals exact K.endStep h

theorem holdStep (h : P s) {n : StationId} {c : ChannelId} : P (holdStep n c s) := by
  unfold Machine.holdStep
  split
  case h_1 | h_2 | h_3 => exact K.endStep (K.setChan h)
  all_goals exact K.endStep h

theorem liftStep (h : P s) {n : StationId} {c : Option ChannelId} : P (liftStep n c s) := by
  cases c with
  | none => exact K.endStep (K.liftAll h)
  | some c => exact K.endStep (K.setChan h)

theorem delayEnd (h : P s) {n : StationId} {c : ChannelId} : P (delayEnd n c s) := by
  unfold Machine.delayEnd
  split <;> exact K.setChan h

theorem tapOnEnd (h : P s) {n : StationId} {c : ChannelId} : P (tapOnEnd n c s) := by
  unfold Machine.tapOnEnd
  split <;> exact K.setChan h

theorem pressWidthEnd (h : P s) {n : StationId} {c : ChannelId} : P (pressWidthEnd n c s) := by
  unfold Machine.pressWidthEnd
  dsimp only
  split
  · split
    · exact K.endStep (K.setChan h)
    · exact K.setChan h
  all_goals exact K.setChan h

/-! ### The pool -/

theorem grantUnit (h : P s) {u : UnitId} {e : WaitEntry} : P (grantUnit u e s) := K.endStep (K.setUnit h)

theorem arbitrateUnit (h : P s) {u : UnitId} : P (arbitrateUnit s u) := by
  unfold Machine.arbitrateUnit
  split
  · split
    · exact h
    · exact K.grantUnit (K.waitList h)
  · exact h

theorem arbitrate (h : P s) : P (arbitrate s) := K.foldl (fun _ h => K.arbitrateUnit h) _ h

theorem abandonUnits (h : P s) {n : StationId} : P (abandonUnits n s) := K.contents h ..

theorem startUnits (h : P s) {n : StationId} {cond : StartCond} {stamp : Word} : P (startUnits n cond stamp s) := K.units h

theorem collectUnit (h : P s) {n : StationId} {u : UnitId} : P (collectUnit n u s) :=
  K.arbitrate (K.endStep (K.setUnit h))

theorem unitDone (h : P s) {u : UnitId} {c : Completion} {x : MeasUnit} : P (unitDone u c x s) := by
  unfold Machine.unitDone
  dsimp only
  split
  · exact K.collectUnit (K.setUnit h)
  · exact K.setUnit h

theorem armStep (h : P s) {n : StationId} {st : InFlight} {slot : SlotId} {arm : ArmSettings} :
    P (armStep n st slot arm s) := by
  unfold Machine.armStep
  split
  · exact K.endStep h
  · split
    · exact K.endStep (K.setUnit h)
    · exact K.waitList (K.setCtx (K.markWaiting h))

theorem collectStep (h : P s) {n : StationId} {st : InFlight} {slot : SlotId} : P (collectStep n st slot s) := by
  unfold Machine.collectStep
  split
  · exact K.endStep h
  · split
    · exact K.collectUnit h
    · exact K.markWaiting h

theorem measuredEdge (h : P s) {u : UnitId} : P (measuredEdge u s) := by
  unfold Machine.measuredEdge
  split
  · exact h
  · dsimp only
    split
    · exact K.unitDone h
    · exact K.setUnit h

theorem windowExpiry (h : P s) {u : UnitId} : P (windowExpiry u s) := by
  unfold Machine.windowExpiry
  dsimp only
  split
  case h_1 | h_2 => exact h
  case h_3 => exact K.unitDone h
  case h_4 =>
    split
    case h_4 => exact h
    all_goals exact K.unitDone h

theorem abandonCollect (h : P s) {n : StationId} {slot : SlotId} : P (abandonCollect n slot s) := by
  unfold Machine.abandonCollect
  split
  · exact K.setUnit h
  · exact h

theorem collectTimeout (h : P s) {n : StationId} : P (collectTimeout n s) := by
  unfold Machine.collectTimeout
  split
  · exact K.arbitrate (K.endStep (K.abandonCollect h))
  · exact h

/-! ### Cohorts and lines -/

/-- A line out of OFF that enters a drive state other than OFF. -/
theorem setDrive (h : P s) {l : Line} {d : Drive} (hs : (s.line l).drive ≠ .off) (hd : d ≠ .off) : P (setDrive l d s) :=
  K.line h (iff_of_false hd hs)

theorem judgeLine (h : P s) {l : Line} : P (judgeLine l s) := by
  unfold Machine.judgeLine
  split
  case h_1 hd =>
    split
    · exact K.setDrive h (by simp [hd]) (by decide)
    · exact h
  case h_2 hd =>
    split
    · exact h
    · exact K.setDrive h (by simp [hd]) (by decide)
  all_goals exact h

theorem releasePulse (h : P s) {a : Arrival} : P (releasePulse a s).1 := by
  unfold Machine.releasePulse
  split
  · exact h
  · split
    · exact K.setChan h
    all_goals exact h

theorem releaseStation (h : P s) {g : Half} {k : Nat} (a : Arrival) : P (releaseStation g k s a) :=
  K.endStep (K.startUnits (K.releasePulse h))

theorem releaseRound (h : P s) {k : CohortId} : P (releaseRound k s) :=
  K.setCohort (K.foldl (fun a h => K.releaseStation h a) _ h)

theorem settleCohort (h : P s) {k : CohortId} : P (settleCohort k s) := by
  unfold Machine.settleCohort
  dsimp only
  apply K.judgeLine (K.judgeLine _)
  split
  · exact K.setCohort h
  · split
    · split
      · exact K.releaseRound h
      · exact h
    · exact K.setCohort h

theorem joinLive (h : P s) {n : StationId} : P (joinLive n s) := by
  unfold Machine.joinLive
  split
  · exact h
  · exact K.settleCohort (K.setCohort h)

theorem leaveLive (h : P s) {n : StationId} : P (leaveLive n s) := by
  unfold Machine.leaveLive
  split
  · exact h
  · split
    · exact K.settleCohort (K.setCohort h)
    · exact h

theorem leaveArrived (h : P s) {n : StationId} : P (leaveArrived n s) := by
  unfold Machine.leaveArrived
  split
  · exact h
  · split
    · exact K.settleCohort (K.setCohort h)
    · exact h

theorem barrierStep (h : P s) {n : StationId} {st : InFlight} {line : Option Line} {channel : Option ChannelId}
    {delay width : Nat} : P (barrierStep n st line channel delay width s) := by
  unfold Machine.barrierStep
  split
  · exact K.endStep h
  · split
    · exact K.settleCohort (K.setCohort (K.setCtx (K.markWaiting h)))
    · exact K.endStep h

/-- A line that keeps its drive. -/
theorem setLine (h : P s) {l : Line} {x : SyncLine} (hx : x.drive = (s.line l).drive) : P (s.setLine l x) :=
  K.line h (by rw [hx])

theorem holdLine (h : P s) {l : Line} : P (holdLine l s) := by
  unfold Machine.holdLine
  split
  case isTrue => exact h
  case isFalse hd => exact K.setDrive h hd (by decide)

theorem syncRise (h : P s) {l : Line} : P (syncRise l s) := by
  have ht : P (s.setLine l { s.line l with riseDue := false }) := K.setLine h rfl
  unfold Machine.syncRise
  dsimp only
  split
  · exact K.foldl (fun _ h => K.releaseRound h) _ (K.holdLine ht)
  · exact ht

/-! ### The probe link -/

theorem putLink (h : P s) {n : StationId} {l : Link} : P (putLink n l s) := by
  unfold Machine.putLink
  dsimp only
  split
  · exact K.setLink h
  · exact K.emitEdge (K.setLink h)

theorem enterRecover (h : P s) {n : StationId} : P (enterRecover n s) := K.setLink (K.putLink h)

theorem queryStep (h : P s) {n : StationId} {st : InFlight} : P (queryStep n st s) := by
  unfold Machine.queryStep
  dsimp only
  split
  · exact K.endStep h
  · split
    · exact K.putLink (K.markTaken h)
    · exact K.setLink (K.markTaken h)
  all_goals exact K.setLink (K.markTaken h)

theorem delimiterEnd (h : P s) {n : StationId} : P (delimiterEnd n s) := by
  unfold Machine.delimiterEnd
  split
  · exact K.putLink h
  · exact K.enterRecover h

theorem querySent (h : P s) {n : StationId} : P (querySent n s) := by
  unfold Machine.querySent
  split
  · split
    · exact K.putLink (K.markWaiting h)
    · exact K.endStep (K.putLink h)
  · exact K.putLink h

theorem answerError (h : P s) {n : StationId} {code : Code} {index : Nat} {l : Link} :
    P (answerError n code index l s) := K.endStep (K.enterRecover (K.setLink h))

theorem answerByte (h : P s) {n : StationId} {bits : List Bool} : P (answerByte n bits s) := by
  unfold Machine.answerByte
  dsimp only
  split
  · exact K.answerError h
  · split
    · exact K.setLink h
    · exact K.answerError h
    · exact K.endStep (K.putLink (K.setLink h))

theorem lineFaultEntry (h : P s) {n : StationId} (hn : p n) : P (lineFaultEntry n s) := by
  unfold Machine.lineFaultEntry
  dsimp only
  split
  · exact K.endStep (K.partHalf (K.putLink h) n hn)
  · exact K.partHalf (K.putLink h) n hn

theorem awaitAttentionStep (h : P s) {n : StationId} {st : InFlight} {fresh : Bool} :
    P (awaitAttentionStep n st fresh s) := by
  unfold Machine.awaitAttentionStep
  dsimp only
  split
  · exact K.endStep (K.setLink h)
  · exact K.markWaiting (K.setLink h)

theorem recognise (h : P s) {n : StationId} {stamp : Word} (hn : p n) : P (recognise n stamp s) := by
  unfold Machine.recognise
  dsimp only
  split
  · exact K.endStep (K.startUnits (K.partHalf (K.setLink h) n hn))
  · exact K.startUnits (K.partHalf (K.setLink h) n hn)

/-- What the shared operations keep is kept by the acts of stations. -/
theorem acts : KeptByActs p P where
  setSt h _ := K.setSt h
  edge h _ := K.emitEdge h
  offer h hr := K.offer h hr
  partHalf h hn := K.partHalf h _ hn
  withdraw h hn := K.withdraw h _ hn
  abandonUnits h _ := K.abandonUnits h
  abandonCollect h _ := K.abandonCollect h
  leaveList h _ := K.waitList h
  arbitrate h := K.arbitrate h
  joinLive h _ := K.joinLive h
  leaveLive h _ := K.leaveLive h
  leaveArrived h _ := K.leaveArrived h

end KeptBySharedOf

namespace KeptByChangeOf

variable {p : StationId → Prop} {P : State → Prop} (K : KeptByChangeOf p P) {s : State}

include K

theorem halts : KeptByHalts p P where
  toKeptByActs := K.acts
  attention h hn := K.attention h _ hn

/-! ### Inputs -/

theorem inputChange (h : P s) {i : InputId} {high : Bool} : P (inputChange i high s) := by
  unfold Machine.inputChange
  split
  · exact K.setSt h
  · exact K.setLine h rfl
  · exact K.setPower h

theorem stationEdge (h : P s) {n : StationId} {p : FilteredPin} {high : Bool} : P (stationEdge n p high s) := by
  cases p
  case sense0 | sense1 => exact K.emitEdge h
  case supplyGood => exact K.emitEdge (K.setPower h)
  case trip => exact K.setPower h

theorem acceptFilter (h : P s) {f : FilterId} : P (acceptFilter f s) := by
  cases f with
  | station n p => exact K.stationEdge (K.setSt h)
  | sync l => exact K.setLine h rfl

end KeptByChangeOf

namespace KeptByWork

variable {P : State → Prop} (K : KeptByWork P) {s : State}

include K

/-! ### What ends with the begin of a send -/

theorem supplyOn (h : P s) {n : StationId} {st : InFlight} : P (supplyOn n st s) := by
  unfold Machine.supplyOn Machine.startRamp
  dsimp only
  split
  · split
    case h_1 => exact K.endStep h
    case h_4 => exact K.markWaiting h
    all_goals
      split
      · exact K.kick (K.halts.tripSupply (K.acts.setSupply (K.markWaiting h) trivial) trivial)
      · exact K.acts.setSupply (K.markWaiting h) trivial
  · exact K.endStep h

theorem seatChanged (h : P s) {n : StationId} {closed : Bool} : P (seatChanged n closed s) := by
  unfold Machine.seatChanged
  dsimp only
  split
  · exact K.kick (K.partHalf (K.emitEdge (K.attention (K.setPower h) n trivial)) n trivial)
  · exact K.kick (K.halts.unseat (K.partHalf (K.emitEdge (K.attention (K.setPower h) n trivial)) n trivial) trivial)

theorem firstEvaluation (h : P s) {n : StationId} : P (firstEvaluation n s) := by
  unfold Machine.firstEvaluation
  split
  · exact K.seatChanged h
  · exact K.setPower h

end KeptByWork

/-! ### Commands -/

/-- The commands that touch Part Control, the sweep, the registers, the timers and the engine's sent entries. -/
def TouchesPart : Instr → Prop
  | .coldReset _ | .softReset _ _ | .startRequest _ _ | .quiesce _ _ | .leaveFaulted _ _ | .faultedToConfig => True
  | .syncUseSet _ _ | .syncUseClear _ _ | .sweepPeriod _ _ | .sweep _ _ | .attentionClear _ _ => True
  | .noticeMaskWrite _ _ | .registerWrite _ _ _ | .msTick | .sweepTimerExpiry | .sendEntry => True
  | .readCompletion _ _ _ _ | .completionTimeout _ | .quiesceComplete | .messageOffer | .holdoffEnd => True
  | _ => False

/-- A command that answers with one state. -/
theorem prop_of_next {P : State → Prop} {u t : State} (hu : P u)
    (ht : (.next u : Host.Outcome State Fault Refusal) = .next t) : P t := by
  obtain rfl := Host.Outcome.next.inj ht
  exact hu

/-- A command that acts when it is due and changes nothing when it is not. -/
theorem prop_of_due {P : State → Prop} {b : Bool} {s u t : State} (h : P s) (hu : P u)
    (ht : (.next (if b then u else s) : Host.Outcome State Fault Refusal) = .next t) : P t := by
  cases b
  · exact prop_of_next h ht
  · exact prop_of_next hu ht

/-- Every other command keeps what work keeps. -/
theorem exec_keeps_of_work {P : State → Prop} (K : KeptByWork P) {i : Instr} (hi : ¬TouchesPart i) {s t : State} (h : P s)
    (ht : exec i s = .next t) : P t := by
  cases i
  case coldReset | softReset | startRequest | quiesce | leaveFaulted | faultedToConfig | syncUseSet | syncUseClear |
      sweepPeriod | sweep | attentionClear | noticeMaskWrite | registerWrite | msTick | sweepTimerExpiry | sendEntry |
      readCompletion | completionTimeout | quiesceComplete | messageOffer | holdoffEnd =>
    exact (hi trivial).elim
  case retirement => exact prop_of_due h (K.kick (K.halts.retire h trivial)) ht
  case discarded => exact prop_of_due h (K.kick (K.halts.retireDiscarded h trivial)) ht
  case pauseExpiry => exact prop_of_due h (K.endStep h) ht
  case breakBegin => exact prop_of_due h (K.putLink h) ht
  case bitError => exact prop_of_due h (K.endStep (K.enterRecover h)) ht
  case querySent => exact prop_of_due h (K.querySent h) ht
  case answerStart => exact prop_of_due h (K.setLink (K.setCtx h)) ht
  case gapTimeout => exact prop_of_due h (K.answerError h) ht
  case noAnswer => exact prop_of_due h (K.endStep (K.enterRecover h)) ht
  case recoverEnd => exact prop_of_due h (K.putLink h) ht
  case probeEdge => exact prop_of_next (K.putLink h) ht
  case lineFaultEntry => exact prop_of_due h (K.lineFaultEntry h trivial) ht
  case lineFaultEnd => exact prop_of_due h (K.putLink h) ht
  case noAttention => exact prop_of_due h (K.endStep h) ht
  case delayEnd => exact prop_of_due h (K.delayEnd h) ht
  case pressWidthEnd => exact prop_of_due h (K.pressWidthEnd h) ht
  case tapOnEnd => exact prop_of_due h (K.tapOnEnd h) ht
  case periodBoundary => exact prop_of_due h (K.setChan h) ht
  case firstEvaluation => exact prop_of_due h (K.firstEvaluation h) ht
  case seatChange => exact prop_of_due h (K.seatChanged h) ht
  case inputChange => exact prop_of_next (K.inputChange h) ht
  case filterAcceptance => exact prop_of_due h (K.acceptFilter h) ht
  case supplyGoodRise => exact prop_of_due h (K.endStep (K.acts.setSupply h trivial)) ht
  case noSupplyGood => exact prop_of_due h (K.endStep (K.acts.setSupply h trivial)) ht
  case tripAccepted => exact prop_of_due h (K.kick (K.halts.tripSupply h trivial)) ht
  case lossOfSupplyGood => exact prop_of_due h (K.kick (K.halts.tripSupply h trivial)) ht
  case measuredEdge => exact prop_of_next (K.measuredEdge h) ht
  case windowExpiry => exact prop_of_due h (K.windowExpiry h) ht
  case gateEnd => exact prop_of_due h (K.unitDone h) ht
  case noUnit => exact prop_of_due h (K.endStep (K.waitList h)) ht
  case collectTimeout => exact prop_of_due h (K.collectTimeout h) ht
  case barrierTimeout => exact prop_of_due h (K.endStep (K.leaveArrived h)) ht
  case syncRise => exact prop_of_due h (K.syncRise h) ht
  case syncFall l =>
    have hl : P (s.setLine l { s.line l with fallDue := false }) := K.setLine h rfl
    exact prop_of_due h (K.judgeLine hl) ht
  case syncHoldEnd l =>
    cases hd : syncHoldDue s l
    · exact prop_of_next h (by simpa [exec, execSyncHoldEnd, hd] using ht)
    · have hh : (s.line l).drive ≠ .off := by
        simp only [syncHoldDue, Bool.and_eq_true, beq_iff_eq] at hd
        simp [hd.1]
      exact prop_of_due h (K.judgeLine (K.setDrive h hh (by decide))) ht
  case breakEnd => exact prop_of_due h (K.putLink h) ht
  case delimiterEnd => exact prop_of_due h (K.delimiterEnd h) ht
  case pause =>
    simp only [exec, execPause] at ht
    split at ht
    · split at ht
      · exact prop_of_next (K.setCtx h) ht
      · exact prop_of_next h ht
    · exact prop_of_next h ht
  case note =>
    simp only [exec, execNote] at ht
    split at ht
    · split at ht
      · exact prop_of_next (K.endStep h) ht
      · exact prop_of_next h ht
    · exact prop_of_next h ht
  case setup =>
    simp only [exec, execSetup] at ht
    split at ht
    · split at ht
      · exact prop_of_next (K.halts.setupStep h trivial) ht
      · exact prop_of_next h ht
    · exact prop_of_next h ht
  case query =>
    simp only [exec, execQuery] at ht
    split at ht
    · split at ht
      · exact prop_of_next (K.queryStep h) ht
      · exact prop_of_next h ht
    · exact prop_of_next h ht
  case awaitAttention =>
    simp only [exec, execAwaitAttention] at ht
    split at ht
    · split at ht
      · exact prop_of_next (K.awaitAttentionStep h) ht
      · exact prop_of_next h ht
    · exact prop_of_next h ht
  case press =>
    simp only [exec, execPress] at ht
    split at ht
    · split at ht
      · exact prop_of_next (K.pressStep h) ht
      · exact prop_of_next h ht
    · exact prop_of_next h ht
  case tap =>
    simp only [exec, execTap] at ht
    split at ht
    · split at ht
      · exact prop_of_next (K.tapStep h) ht
      · exact prop_of_next h ht
    · exact prop_of_next h ht
  case hold =>
    simp only [exec, execHold] at ht
    split at ht
    · split at ht
      · exact prop_of_next (K.holdStep h) ht
      · exact prop_of_next h ht
    · exact prop_of_next h ht
  case lift =>
    simp only [exec, execLift] at ht
    split at ht
    · split at ht
      · exact prop_of_next (K.liftStep h) ht
      · exact prop_of_next h ht
    · exact prop_of_next h ht
  case arm =>
    simp only [exec, execArm] at ht
    split at ht
    · split at ht
      · exact prop_of_next (K.armStep h) ht
      · exact prop_of_next h ht
    · exact prop_of_next h ht
  case collect =>
    simp only [exec, execCollect] at ht
    split at ht
    · split at ht
      · exact prop_of_next (K.collectStep h) ht
      · exact prop_of_next h ht
    · exact prop_of_next h ht
  case barrier =>
    simp only [exec, execBarrier] at ht
    split at ht
    · split at ht
      · exact prop_of_next (K.barrierStep h) ht
      · exact prop_of_next h ht
    · exact prop_of_next h ht
  case supply =>
    simp only [exec, execSupply] at ht
    split at ht
    · split at ht
      · split at ht
        · exact prop_of_next (K.supplyOn h) ht
        · exact prop_of_next (K.endStep (K.acts.setSupply h trivial)) ht
      · exact prop_of_next h ht
    · exact prop_of_next h ht
  case answerByte =>
    simp only [exec, execAnswerByte] at ht
    split at ht
    · exact prop_of_next (K.answerByte h) ht
    · exact prop_of_next h ht
  case attentionRecognition =>
    simp only [exec, execAttentionRecognition] at ht
    split at ht
    · exact prop_of_next (K.recognise h trivial) ht
    · exact prop_of_next h ht

/-- A property that the waiting commands and the choice counter do not matter to, and that every command and every REFCLK
period keeps, is kept by every step. -/
theorem step_keeps {P : State → Prop}
    (model : ∀ {s : State} (p : List Instr) (c : Nat), P s → P { s with pending := p, choices := c })
    (command : ∀ {i : Instr} {s t : State}, P s → exec i s = .next t → P t)
    (period : ∀ {s : State}, P s → P (refclk s)) {s t : State} (h : P s) (ht : step s = .next t) : P t := by
  unfold step at ht
  split at ht
  case h_1 rest _ => exact command (model rest s.choices h) ht
  case h_2 =>
    unfold takeDue at ht
    split at ht
    · exact prop_of_next (period h) ht
    · exact command h ht
    · exact command (model s.pending _ h) ht

end Sys2Proof.Proofs
end

section
/-! PROOFS. What Part Control, the sweep, the registers and the engine's own events can do to the requests and the registers,
and the invariants of the queue (R164), of the part-half writes (R165, R168) and of the registers (R177, R179, R7). -/

namespace Sys2Proof.Proofs

open Sys2Proof.Machine Sys2Proof.Laws

/-- The kinds of a queue's entries. -/
def queueKinds (e : Engine) : List ReqKind := e.queue.map fun x => x.req.kind

/-- The kinds of the requests that wait for room. -/
def roomKinds (e : Engine) : List ReqKind := e.room.map Request.kind

/-- The property is kept by work, does not matter to the sweep, the clock and the model's own fields, and is kept by what the
engine and the Notice Block writer do: requests are taken away, the queue is refilled, a held update is offered after its
station's write is sent, and the writer's registers are written. -/
structure KeptByEngine (P : State → Prop) : Prop extends KeptByWork P where
  model {s : State} (h : P s) (time : TimeBase) (sweep : Sweep) (sentLog : List Sent) (choices : Nat) (pending : List Instr) :
    P { s with time := time, sweep := sweep, sentLog := sentLog, choices := choices, pending := pending }
  registers {s : State} {y : Notice} (h : P s)
    (ha : s.notice.attention &&& 0x7F000000 = 0 → y.attention &&& 0x7F000000 = 0)
    (hm : s.notice.mask &&& 0x7F000000 = 0 → y.mask &&& 0x7F000000 = 0) : P { s with notice := y }
  requests {s : State} {e : Engine} (h : P s) (hq : (queueKinds e).Sublist (queueKinds s.engine))
    (hr : (roomKinds e).Sublist (roomKinds s.engine)) : P { s with engine := e }
  refill {s : State} (h : P s) : P (refill s)
  heldOffered {s : State} {before after : List Entry} {e : Entry} {n : StationId} (h : P s)
    (hq : s.engine.queue = before ++ e :: after) (he : e.req.kind = .partHalf n) (sentLog : List Sent) :
    P (offerHeld n (Machine.refill
      { s with engine := { s.engine with queue := before ++ after }, sentLog := sentLog }))

namespace KeptByEngine

variable {P : State → Prop} (K : KeptByEngine P) {s : State}

include K

/-! ### The sweep and the drain -/

theorem setSweep (h : P s) {x : Sweep} : P { s with sweep := x } := K.model h s.time x s.sentLog s.choices s.pending

theorem beginSweep (h : P s) : P (beginSweep s) := K.offer (K.setSweep h) (by simp)

theorem endSweep (h : P s) : P (endSweep s) := by
  unfold Machine.endSweep
  dsimp only
  split
  · exact K.beginSweep (K.setSweep h)
  · exact K.setSweep h

theorem sweepWrite (h : P s) : P (sweepWrite s) := by
  unfold Machine.sweepWrite
  split
  · split
    · exact K.setSweep h
    · exact K.beginSweep h
  · exact h

theorem sweepTimerExpiry (h : P s) : P (sweepTimerExpiry s) := by
  unfold Machine.sweepTimerExpiry
  split
  · exact K.setSweep h
  · exact K.beginSweep h

theorem startDrain (h : P s) : P (startDrain s) := by
  unfold Machine.startDrain
  dsimp only
  have hdrop : P { s with engine := { s.engine with
      queue := s.engine.queue.filter Entry.drains, room := s.engine.room.filter fun r => !r.kind.isRead } } :=
    K.requests h (List.filter_sublist.map _) (List.filter_sublist.map _)
  exact K.setSweep (K.foldl (fun _ h => K.refill h) _ hdrop)

/-! ### The registers -/

theorem clearAttention (h : P s) {w : Word} {be : BitVec 4} : P (clearAttention w be s) := by
  refine K.registers h (fun ha => ?_) (fun hm => hm)
  show s.notice.attention &&& ~~~(mergeBytes be w 0) &&& 0x7F000000 = 0
  rw [BitVec.and_assoc, BitVec.and_comm (~~~_), ← BitVec.and_assoc, ha]
  exact BitVec.zero_and

theorem maskWrite (h : P s) {w : Word} {be : BitVec 4} : P (maskWrite w be s) := by
  refine K.kick (K.registers h (fun ha => ha) (fun _ => ?_))
  show mergeBytes be w s.notice.mask &&& attentionBits &&& 0x7F000000 = 0
  rw [BitVec.and_assoc, show attentionBits &&& 0x7F000000 = (0 : Word) by decide]
  exact BitVec.and_zero

/-! ### The Notice Block writer and the engine -/

theorem holdoffEnd (h : P s) : P (holdoffEnd s) := K.kick (K.registers h (fun ha => ha) (fun hm => hm))

theorem offerMessage (h : P s) : P (offerMessage s) := by
  have hn : P { s with notice := { s.notice with offered := true } } := K.registers h (fun ha => ha) (fun hm => hm)
  exact K.offer hn (by simp)

theorem messageSent (h : P s) : P (messageSent s) := by
  unfold Machine.messageSent
  split
  · exact K.holdoffEnd h
  · exact K.registers h (fun ha => ha) (fun hm => hm)

/-- An entry that is no part-half write has left the queue. -/
theorem entryGone (h : P s) {before after : List Entry} {e : Entry} (hq : s.engine.queue = before ++ e :: after)
    (log : List Sent) :
    P (Machine.refill { s with engine := { s.engine with queue := before ++ after }, sentLog := log }) := by
  refine K.refill (K.model (K.requests h (e := { s.engine with queue := before ++ after }) ?_ (List.Sublist.refl _))
    s.time s.sweep log s.choices s.pending)
  unfold queueKinds
  rw [hq, List.map_append, List.map_append, List.map_cons]
  exact (List.sublist_cons_self ..).append_left _

theorem sendOne (h : P s) {before after : List Entry} {e : Entry} (hq : s.engine.queue = before ++ e :: after) :
    P (sendOne before e after s) := by
  unfold Machine.sendOne
  split
  · have hkinds (r : SentRead) : queueKinds { s.engine with queue := before ++ { e with sent := some r } :: after } =
        queueKinds s.engine := by
      unfold queueKinds
      rw [hq, List.map_append, List.map_append, List.map_cons, List.map_cons]
    have hsent (r : SentRead) : P { s with engine := { s.engine with
        queue := before ++ { e with sent := some r } :: after, nextTag := s.engine.nextTag + 1 } } :=
      K.requests h (by rw [← hkinds r]; exact List.Sublist.refl _) (List.Sublist.refl _)
    exact K.model (hsent _) s.time s.sweep _ s.choices s.pending
  · unfold afterSend
    split
    case h_1 => exact K.halts.offerBacklog (K.entryGone h hq _) trivial
    case h_2 hk => exact K.heldOffered h hq hk _
    case h_3 => exact K.messageSent (K.entryGone h hq _)
    all_goals exact K.entryGone h hq _

theorem sendEntry (h : P s) : P (sendEntry s) := by
  unfold Machine.sendEntry
  split
  case h_1 => exact h
  case h_2 e after hd =>
    refine K.sendOne h ?_
    rw [← hd, List.takeWhile_append_dropWhile]

theorem freeRead (h : P s) {tag : Nat} : P (freeRead tag s) :=
  K.refill (K.requests h (List.filter_sublist.map _) (List.Sublist.refl _))

theorem readDone (h : P s) {k : ReqKind} {data : List Byte} : P (readDone k data s) := by
  unfold Machine.readDone
  split
  case h_1 =>
    refine K.kick (K.endSweep ?_)
    split
    · exact K.halts.observeAll h fun _ => trivial
    · exact h
  case h_2 => exact K.kick (K.halts.fetchCompleted h trivial)
  all_goals exact h

theorem extendRead (h : P s) {tag : Nat} {data : List Byte} : P (extendRead tag data s) := by
  have hkind (x : Entry) : (if x.hasTag tag then x.extend data else x).req.kind = x.req.kind := by split <;> rfl
  exact K.requests h (by simp [queueKinds, Function.comp_def, hkind]) (List.Sublist.refl _)

/-! ### The clock -/

theorem msTick (h : P s) : P (msTick s) :=
  K.contents (K.model h { s.time with tickDue := false } s.sweep s.sentLog s.choices s.pending) ..

theorem timersPeriod (h : P s) : P (timersPeriod s) := by
  have hqueue : P { s with engine := { s.engine with queue := s.engine.queue.map Entry.period } } := by
    refine K.requests h ?_ (List.Sublist.refl _)
    unfold queueKinds
    rw [List.map_map]
    rfl
  have hnotice := K.registers (y := { s.notice with timer := tickDown s.notice.timer }) hqueue (fun ha => ha) (fun hm => hm)
  have hmodel := K.model hnotice s.time.period { s.sweep with timer := tickDown s.sweep.timer } s.sentLog s.choices s.pending
  have hcontents := K.contents hmodel (s.stations.map Station.period)
    (s.units.map fun u => { u with gate := tickDown u.gate }) s.waitList s.cohorts
  exact K.setLine (l := .b) (x := s.lineB.period) (K.setLine (l := .a) (x := s.lineA.period) hcontents rfl) rfl

theorem refclk (h : P s) : P (refclk s) := K.foldl (fun _ h => K.putLink h) _ (K.timersPeriod h)

end KeptByEngine

/-- The property is kept by the engine and by what Part Control does, each change of the part state when it is due. -/
structure KeptByPart (P : State → Prop) : Prop extends KeptByEngine P where
  /-- A write of HOLDOFF and WORK_BASE. -/
  base {s : State} (h : P s) (holdoff : Half) (workLo workHi : Word) :
    P { s with ctl := { s.ctl with holdoff := holdoff, workLo := workLo, workHi := workHi } }
  controlWrite {s : State} {w : Word} {be : BitVec 4} (h : P s) : P (controlWrite w be s)
  coldReset {s : State} (h : P s) : P (coldReset s)
  sweepFault {s : State} (h : P s) : P (sweepFault s)
  enterConfig {s : State} (h : P s) (hs : s.ctl.state = .faulted) : P (enterConfig s)
  quiesceComplete {s : State} (h : P s) (hs : s.ctl.state = .quiescing) : P (quiesceComplete s)

namespace KeptByPart

variable {P : State → Prop} (K : KeptByPart P) {s : State}

include K

theorem registerWrite (h : P s) {reg : Nat} {w : Word} {be : BitVec 4} : P (registerWrite reg w be s) := by
  unfold Machine.registerWrite
  split
  case h_1 => exact K.controlWrite h
  case h_2 => exact K.base h _ s.ctl.workLo s.ctl.workHi
  case h_3 =>
    unfold workLoWrite
    split
    · exact K.base h s.ctl.holdoff _ s.ctl.workHi
    · exact h
  case h_4 =>
    unfold workHiWrite
    split
    · exact K.base h s.ctl.holdoff s.ctl.workLo _
    · exact h
  case h_5 => exact K.sweepWrite h
  case h_6 => exact K.clearAttention h
  case h_7 => exact K.maskWrite h
  case h_8 => exact h

theorem readFaulted (h : P s) {k : ReqKind} : P (readFaulted k s) := by
  unfold Machine.readFaulted
  split
  case h_1 => exact K.sweepFault h
  case h_2 => exact K.kick (K.halts.fetchEnded h trivial)
  all_goals exact h

theorem completeRead (h : P s) {e : Entry} {tag first : Nat} {status : CompletionStatus} {data : List Byte} :
    P (completeRead e tag status first data s) := by
  unfold Machine.completeRead
  dsimp only
  split
  · exact K.readFaulted (K.freeRead h)
  · split
    · exact K.readDone (K.freeRead h)
    · exact K.extendRead h

theorem completionTimeout (h : P s) {tag : Nat} : P (completionTimeout tag s) := by
  unfold Machine.completionTimeout
  split
  · exact K.readFaulted (K.freeRead h)
  · exact h

end KeptByPart

/-- The property is kept by the engine and does not depend on the part state, the use flags and the lines. -/
structure KeptByControl (P : State → Prop) : Prop extends KeptByEngine P where
  control {s : State} {c : Control} (h : P s) (hc : s.ctl.period ≠ 0 → c.period ≠ 0) : P { s with ctl := c }
  anyLine {s : State} (h : P s) (l : Line) (x : SyncLine) : P (s.setLine l x)
  coldReset {s : State} (h : P s) : P (coldReset s)
  softReset {s : State} (h : P s) : P (softReset s)

namespace KeptByControl

variable {P : State → Prop} (K : KeptByControl P) {s : State}

include K

theorem anyDrive (h : P s) {l : Line} {d : Drive} : P (setDrive l d s) := K.anyLine h ..

theorem applyUse (h : P s) {l : Line} : P (applyUse l s) := by
  unfold Machine.applyUse
  split
  · split
    · exact K.judgeLine (K.anyDrive h)
    · exact h
  · split
    · exact h
    · exact K.anyDrive h

theorem enterActive (h : P s) : P (enterActive s) := by
  have hctl : P { s with ctl := { s.ctl with state := .active, fault := .none, base := s.ctl.workBase } } :=
    K.control h (fun hp => hp)
  exact K.kick (K.applyUse (K.applyUse (K.foldl (fun n h => K.partHalf h n trivial) _ (K.beginSweep hctl))))

theorem startRequest (h : P s) : P (startRequest s) := by
  unfold Machine.startRequest
  split
  · exact K.enterActive h
  · exact K.control h (fun hp => hp)

theorem enterQuiesce (h : P s) {d : Destination} : P (enterQuiesce d s) := by
  have hctl : P { s with ctl := { s.ctl with state := .quiescing, dest := d } } := K.control h (fun hp => hp)
  exact K.foldl (fun n h => K.halts.quiesceStation h n trivial) _ (K.anyDrive (K.anyDrive (K.startDrain hctl)))

theorem leaveFaulted (h : P s) : P (leaveFaulted s) := by
  unfold Machine.leaveFaulted
  split
  · exact K.control h (fun hp => hp)
  · exact K.control h (fun hp => hp)

theorem controlReact (h : P s) : P (controlReact s) := by
  unfold Machine.controlReact
  split
  case h_1 => exact K.startRequest h
  case h_3 => exact K.applyUse (K.applyUse h)
  case h_4 => exact K.enterQuiesce h
  case h_7 => exact K.leaveFaulted h
  all_goals exact h

theorem controlWrite (h : P s) {w : Word} {be : BitVec 4} : P (controlWrite w be s) := by
  unfold Machine.controlWrite
  dsimp only
  split
  · exact K.softReset h
  · refine K.controlReact (K.control h fun hp => ?_)
    unfold Control.stored
    dsimp only
    split <;> assumption

theorem sweepFault (h : P s) : P (sweepFault s) := by
  have hsweep : P { s with sweep := { s.sweep with inFlight := false } } := K.setSweep h
  have hfault : P { s with
      sweep := { s.sweep with inFlight := false }, ctl := { s.ctl with fault := .sweepRead } } :=
    K.control hsweep (fun hp => hp)
  unfold Machine.sweepFault
  dsimp only
  split
  · exact K.enterQuiesce hfault
  · exact hsweep

theorem quiesceComplete (h : P s) : P (quiesceComplete s) := by
  unfold Machine.quiesceComplete
  split
  · exact K.control h (fun hp => hp)
  · refine K.kick ?_
    have hc : P { s with ctl := { s.ctl with state := .faulted } } := K.control h (fun hp => hp)
    unfold setAttention
    split
    · exact hc
    · refine K.registers hc (fun ha => ?_) (fun hm => hm)
      have ha : s.notice.attention &&& 0x7F000000 = 0 := ha
      show (s.notice.attention ||| BitVec.twoPow 32 31) &&& 0x7F000000 = 0
      rw [BitVec.and_comm, BitVec.and_or_distrib_left, BitVec.and_comm, ha]
      decide

/-- What does not depend on the part state is kept by every change of it. -/
theorem keptByPart : KeptByPart P where
  toKeptByEngine := K.toKeptByEngine
  base h _ _ _ := K.control h (fun hp => hp)
  controlWrite h := K.controlWrite h
  coldReset h := K.coldReset h
  sweepFault h := K.sweepFault h
  enterConfig h _ := K.control h (fun hp => hp)
  quiesceComplete h _ := K.quiesceComplete h

end KeptByControl

/-- Every command keeps what the part keeps. -/
theorem exec_keeps_of_part {P : State → Prop} (K : KeptByPart P) {i : Instr} {s t : State} (h : P s)
    (ht : exec i s = .next t) : P t := by
  by_cases hi : TouchesPart i
  case neg => exact exec_keeps_of_work K.toKeptByWork hi h ht
  case pos =>
    cases i
    case coldReset => exact prop_of_next (K.coldReset h) ht
    case softReset | startRequest | quiesce | leaveFaulted | syncUseSet | syncUseClear | sweepPeriod =>
      exact prop_of_next (K.controlWrite h) ht
    case faultedToConfig =>
      cases hd : faultedLeaveDue s
      · exact prop_of_next h (by simpa [exec, execFaultedToConfig, hd] using ht)
      · simp only [faultedLeaveDue, Bool.and_eq_true, beq_iff_eq] at hd
        exact prop_of_due h (K.enterConfig h hd.1.1) ht
    case sweep => exact prop_of_next (K.sweepWrite h) ht
    case attentionClear => exact prop_of_next (K.clearAttention h) ht
    case noticeMaskWrite => exact prop_of_next (K.maskWrite h) ht
    case registerWrite => exact prop_of_next (K.registerWrite h) ht
    case msTick => exact prop_of_due h (K.msTick h) ht
    case sweepTimerExpiry => exact prop_of_due h (K.sweepTimerExpiry h) ht
    case sendEntry => exact prop_of_next (K.sendEntry h) ht
    case readCompletion =>
      simp only [exec, execReadCompletion] at ht
      split at ht
      · exact prop_of_next (K.completeRead h) ht
      · exact prop_of_next h ht
    case completionTimeout => exact prop_of_due h (K.completionTimeout h) ht
    case quiesceComplete =>
      cases hd : quiesceDone s
      · exact prop_of_next h (by simpa [exec, execQuiesceComplete, hd] using ht)
      · simp only [quiesceDone, Bool.and_eq_true, beq_iff_eq] at hd
        exact prop_of_due h (K.quiesceComplete h hd.1.1.1) ht
    case messageOffer => exact prop_of_due h (K.offerMessage h) ht
    case holdoffEnd => exact prop_of_due h (K.holdoffEnd h) ht
    all_goals exact hi.elim

/-- Every step keeps what the part keeps. -/
theorem step_keeps_of_part {P : State → Prop} (K : KeptByPart P) {s t : State} (h : P s) (ht : step s = .next t) : P t :=
  step_keeps (fun {s} p c h => K.model h s.time s.sweep s.sentLog c p) (exec_keeps_of_part K) (fun h => K.refclk h) h ht

end Sys2Proof.Proofs
end

section
/-! PROOFS. The invariants of the queue (R164), of the part-half writes (R165, R168) and of the registers (R177, R179, R7). -/

namespace Sys2Proof.Proofs

open Sys2Proof.Machine Sys2Proof.Laws

/-! ### What the engine's operations do to its queue and room wait list -/

/-- The update of a part-half write in its place leaves every kind. -/
theorem replaceBytes_kind (n : StationId) (bytes : List Byte) (r : Request) : (replaceBytes n bytes r).kind = r.kind := by
  unfold replaceBytes
  split <;> rfl

theorem offer_queue_length {r : Request} {s : State} (h : s.engine.queue.length ≤ 16) :
    (offer r s).engine.queue.length ≤ 16 := by
  rw [offer_engine]
  unfold engineOffered
  split
  · split
    case isTrue room => simpa using room.1
    case isFalse => exact h
  · exact h

/-- A refill moves the head of the room wait list to the tail of the queue, or does nothing. -/
theorem refill_engine (s : State) :
    (refill s).engine = s.engine ∨ ∃ r rest, s.engine.room = r :: rest ∧ s.engine.queue.length < 16 ∧
      (refill s).engine =
        { s.engine with queue := s.engine.queue ++ [{ req := r, sent := none }], room := rest } := by
  unfold refill
  split
  case h_1 => exact .inl rfl
  case h_2 r rest hr =>
    split
    case isTrue hlen => exact .inr ⟨r, rest, hr, hlen, rfl⟩
    case isFalse => exact .inl rfl

theorem refill_queue_length {s : State} (h : s.engine.queue.length ≤ 16) : (refill s).engine.queue.length ≤ 16 := by
  rcases refill_engine s with he | ⟨r, rest, _, hlen, he⟩ <;> rw [he]
  · exact h
  · simpa using hlen

/-- The queuing of a part-half write: the engine's kinds stand, or the write is offered. -/
theorem queuePartHalf_engine (n : StationId) (s : State) :
    (queueKinds (queuePartHalf n s).engine = queueKinds s.engine ∧
      roomKinds (queuePartHalf n s).engine = roomKinds s.engine) ∨
    (s.engine.inRoom (.partHalf n) = false ∧ s.engine.inQueue (.partHalf n) = false ∧
      (queuePartHalf n s).engine = (offer (partHalfRequest s n) s).engine) := by
  unfold queuePartHalf
  split
  · dsimp only
    split
    case isTrue => exact .inl (by simp [queueKinds, roomKinds, Function.comp_def, replaceBytes_kind])
    case isFalse hroom =>
      split
      · split
        · exact .inl ⟨rfl, rfl⟩
        · exact .inl (by simp [queueKinds, roomKinds, Function.comp_def, replaceBytes_kind])
      · exact .inr ⟨by simpa using hroom, by simp_all, rfl⟩
  · exact .inl ⟨rfl, rfl⟩

theorem queueKinds_length (e : Engine) : (queueKinds e).length = e.queue.length := List.length_map ..

theorem queuePartHalf_queue_length {s : State} (n : StationId) (h : s.engine.queue.length ≤ 16) :
    (queuePartHalf n s).engine.queue.length ≤ 16 := by
  rcases queuePartHalf_engine n s with ⟨hq, _⟩ | ⟨_, _, he⟩
  · rwa [← queueKinds_length, hq, queueKinds_length]
  · rw [he]
    exact offer_queue_length h

/-- A send that begins offers the block's write; otherwise nothing happens. -/
theorem noticeKick_engine (s : State) :
    (noticeKick s).engine = s.engine ∨ ∃ r, r.kind = .noticeBlock ∧ (noticeKick s).engine = (offer r s).engine := by
  unfold noticeKick
  split
  · exact .inr ⟨_, rfl, by rw [offer_engine, offer_engine]; rfl⟩
  · exact .inl rfl

theorem offerHeld_engine (n : StationId) (s : State) :
    (offerHeld n s).engine = s.engine ∨
    ∃ r, r.kind = .partHalf n ∧ (offerHeld n s).engine =
      (offer r { s with engine := { s.engine with held := s.engine.held.set n.1 none n.2 } }).engine := by
  unfold offerHeld
  split
  · exact .inl rfl
  · exact .inr ⟨_, rfl, rfl⟩

/-! ### The queue (R164) -/

theorem queueWithinRoom_kept : KeptByControl QueueWithinRoom where
  contents h _ _ _ _ := h
  line h _ := by simpa [QueueWithinRoom] using h
  offer h _ := offer_queue_length h
  partHalf h n _ := queuePartHalf_queue_length n h
  withdraw h _ _ := h
  attention h n _ := by simpa [QueueWithinRoom] using h
  kick {s} h := by
    unfold QueueWithinRoom
    rcases noticeKick_engine s with he | ⟨r, _, he⟩ <;> rw [he]
    · exact h
    · exact offer_queue_length h
  model h _ _ _ _ _ := h
  control h _ := h
  anyLine h l x := by simpa [QueueWithinRoom] using h
  registers h _ _ := h
  requests h hq _ := by
    have hlen := hq.length_le
    rw [queueKinds_length, queueKinds_length] at hlen
    exact hlen.trans h
  refill h := refill_queue_length h
  heldOffered {s before after e n} h hq _ log := by
    have hfree : (before ++ after).length ≤ 16 := by
      have h : s.engine.queue.length ≤ 16 := h
      rw [hq] at h
      simp only [List.length_append, List.length_cons] at h ⊢
      omega
    unfold QueueWithinRoom
    generalize hs' : ({ s with engine := { s.engine with queue := before ++ after }, sentLog := log } : State) = s'
    have hr : (refill s').engine.queue.length ≤ 16 := refill_queue_length (by rw [← hs']; exact hfree)
    rcases offerHeld_engine n (refill s') with he | ⟨r, _, he⟩ <;> rw [he]
    · exact hr
    · exact offer_queue_length hr
  coldReset _ := Nat.zero_le _
  softReset _ := Nat.zero_le _

/-- Settles O4: the queue grows by an offer or a refill alone, and both look for room first. -/
theorem queueStaysWithinSixteen : Obligations.QueueStaysWithinSixteen :=
  fun _ _ h ht => step_keeps_of_part queueWithinRoom_kept.keptByPart h ht

/-! ### The part-half writes (R165, R168) -/

/-- The part-half writes of a station among the kinds of the requests. -/
theorem partHalfCount_eq (s : State) (n : StationId) :
    partHalfCount s n = (queueKinds s.engine).count (.partHalf n) + (roomKinds s.engine).count (.partHalf n) := by
  unfold partHalfCount queueKinds roomKinds
  rw [List.count_eq_countP, List.count_eq_countP, List.countP_map, List.countP_map, List.countP_eq_length_filter,
    List.countP_eq_length_filter]
  rfl

/-- No station has two part-half writes among the requests of the engine. -/
def SingleIn (e : Engine) : Prop :=
  ∀ n, (queueKinds e).count (.partHalf n) + (roomKinds e).count (.partHalf n) ≤ 1

theorem partHalvesSingle_iff (s : State) : PartHalvesSingle s ↔ SingleIn s.engine :=
  forall_congr' fun n => by rw [partHalfCount_eq]

theorem SingleIn.of_sublist {e f : Engine} (h : SingleIn e) (hq : (queueKinds f).Sublist (queueKinds e))
    (hr : (roomKinds f).Sublist (roomKinds e)) : SingleIn f :=
  fun n => (Nat.add_le_add (hq.count_le _) (hr.count_le _)).trans (h n)

/-- An offer adds at most its own request to those of the engine. -/
theorem offer_count_le (r : Request) (s : State) (k : ReqKind) :
    (queueKinds (offer r s).engine).count k + (roomKinds (offer r s).engine).count k ≤
      (queueKinds s.engine).count k + (roomKinds s.engine).count k + [r.kind].count k := by
  rw [offer_engine]
  unfold engineOffered queueKinds roomKinds
  split
  · split <;> simp only [List.map_append, List.count_append, List.map_cons, List.map_nil] <;> omega
  · omega

/-- A refill neither adds nor loses a request. -/
theorem refill_count (s : State) (k : ReqKind) :
    (queueKinds (refill s).engine).count k + (roomKinds (refill s).engine).count k =
      (queueKinds s.engine).count k + (roomKinds s.engine).count k := by
  rcases refill_engine s with he | ⟨r, rest, hr, _, he⟩ <;> rw [he]
  unfold queueKinds roomKinds
  rw [hr]
  simp only [List.map_append, List.map_cons, List.map_nil, List.count_append, List.count_cons, List.count_nil]
  omega

/-- An offer of another kind of request. -/
theorem SingleIn.offer {s : State} (h : SingleIn s.engine) {r : Request} (hr : ∀ n, r.kind ≠ .partHalf n) :
    SingleIn (offer r s).engine := by
  intro n
  have hc := offer_count_le r s (.partHalf n)
  rw [List.count_singleton, if_neg (by simpa using hr n)] at hc
  exact hc.trans (h n)

/-- An offer of a part-half write of a station that has none. -/
theorem SingleIn.offerPartHalf {s : State} (h : SingleIn s.engine) {r : Request} {n : StationId} (hr : r.kind = .partHalf n)
    (hnone : (queueKinds s.engine).count (.partHalf n) + (roomKinds s.engine).count (.partHalf n) = 0) :
    SingleIn (Machine.offer r s).engine := by
  intro m
  have hc := offer_count_le r s (.partHalf m)
  by_cases hm : m = n
  · subst hm
    rw [hnone, hr, List.count_singleton_self] at hc
    exact hc
  · rw [hr, List.count_singleton, if_neg (by simpa using Ne.symm hm)] at hc
    exact hc.trans (h m)

theorem SingleIn.queuePartHalf {s : State} (h : SingleIn s.engine) (n : StationId) :
    SingleIn (queuePartHalf n s).engine := by
  rcases queuePartHalf_engine n s with ⟨hq, hr⟩ | ⟨hroom, hqueue, he⟩
  · intro m
    rw [hq, hr]
    exact h m
  · rw [he]
    refine h.offerPartHalf (n := n) rfl ?_
    have hq : (queueKinds s.engine).count (.partHalf n) = 0 := by
      simpa [Engine.inQueue, queueKinds, List.count_eq_zero] using hqueue
    have hr : (roomKinds s.engine).count (.partHalf n) = 0 := by
      simpa [Engine.inRoom, roomKinds, List.count_eq_zero] using hroom
    omega

/-- The station's write has been sent and its held update offered: the one has left before the other comes. -/
theorem SingleIn.offerHeld {s : State} {before after : List Entry} {e : Entry} {n : StationId} (h : SingleIn s.engine)
    (hq : s.engine.queue = before ++ e :: after) (he : e.req.kind = .partHalf n) (log : List Sent) :
    SingleIn (offerHeld n (refill
      { s with engine := { s.engine with queue := before ++ after }, sentLog := log })).engine := by
  generalize hs' : ({ s with engine := { s.engine with queue := before ++ after }, sentLog := log } : State) = s'
  have hcount (k : ReqKind) : (queueKinds s.engine).count k =
      (queueKinds s'.engine).count k + [e.req.kind].count k := by
    rw [← hs']
    unfold queueKinds
    rw [hq, List.map_append, List.count_append, List.map_cons, ← List.singleton_append (l := List.map _ after), List.count_append,
      List.map_append, List.count_append]
    omega
  have hroom : roomKinds s'.engine = roomKinds s.engine := by rw [← hs']; rfl
  have hsingle : SingleIn (refill s').engine := by
    intro m
    have := hcount (.partHalf m)
    have := h m
    rw [refill_count, hroom]
    omega
  rcases offerHeld_engine n (refill s') with ho | ⟨r, hr, ho⟩ <;> rw [ho]
  · exact hsingle
  · refine SingleIn.offerPartHalf
      (s := { refill s' with engine := { (refill s').engine with held := (refill s').engine.held.set n.1 none n.2 } })
      hsingle hr ?_
    have hn := hcount (.partHalf n)
    have := h n
    rw [he, List.count_singleton_self] at hn
    show (queueKinds (refill s').engine).count _ + (roomKinds (refill s').engine).count _ = 0
    rw [refill_count, hroom]
    omega

theorem partHalvesSingle_kept : KeptByControl PartHalvesSingle where
  contents h _ _ _ _ := h
  line h _ := by
    rw [partHalvesSingle_iff] at h ⊢
    rwa [setLine_engine]
  offer h hr := by
    rw [partHalvesSingle_iff] at h ⊢
    exact h.offer hr
  partHalf h n _ := by
    rw [partHalvesSingle_iff] at h ⊢
    exact h.queuePartHalf n
  withdraw h n _ := by
    rw [partHalvesSingle_iff] at h ⊢
    exact h.of_sublist (List.Sublist.refl _) (List.filter_sublist.map _)
  attention h n _ := by
    rw [partHalvesSingle_iff] at h ⊢
    rwa [setAttention_engine]
  kick {s} h := by
    rw [partHalvesSingle_iff] at h ⊢
    rcases noticeKick_engine s with he | ⟨r, hr, he⟩ <;> rw [he]
    · exact h
    · exact h.offer (by simp [hr])
  model h _ _ _ _ _ := h
  control h _ := h
  anyLine h l x := by
    rw [partHalvesSingle_iff] at h ⊢
    rwa [setLine_engine]
  registers h _ _ := h
  requests h hq hr := by
    rw [partHalvesSingle_iff] at h ⊢
    exact h.of_sublist hq hr
  refill {s} h := by
    rw [partHalvesSingle_iff] at h ⊢
    intro n
    rw [refill_count]
    exact h n
  heldOffered h hq he log := by
    rw [partHalvesSingle_iff] at h ⊢
    exact h.offerHeld hq he log
  coldReset _ _ := Nat.zero_le _
  softReset _ _ := Nat.zero_le _

/-- Settles O8: a part-half write is offered when its station has none, or when the one it has is just sent. -/
theorem partHalfWritesStaySingle : Obligations.PartHalfWritesStaySingle :=
  fun _ _ h ht => step_keeps_of_part partHalvesSingle_kept.keptByPart h ht

/-! ### The registers (R177, R179, R7) -/

/-- An offer leaves the attention bits and the mask. -/
theorem offer_attention (r : Request) (s : State) : (offer r s).notice.attention = s.notice.attention := by
  rw [offer_notice_await]

theorem offer_mask (r : Request) (s : State) : (offer r s).notice.mask = s.notice.mask := by
  rw [offer_notice_await]

theorem queuePartHalf_mask (n : StationId) (s : State) : (queuePartHalf n s).notice.mask = s.notice.mask := by
  rw [queuePartHalf_notice]

theorem noticeKick_mask (s : State) : (noticeKick s).notice.mask = s.notice.mask := by
  unfold noticeKick
  split
  · rw [offer_mask]
  · rfl

theorem refill_attention_mask (s : State) :
    (refill s).notice.attention = s.notice.attention ∧ (refill s).notice.mask = s.notice.mask := by
  unfold refill
  split
  · exact ⟨rfl, rfl⟩
  · split <;> exact ⟨rfl, rfl⟩

theorem offerHeld_attention_mask (n : StationId) (s : State) :
    (offerHeld n s).notice.attention = s.notice.attention ∧ (offerHeld n s).notice.mask = s.notice.mask := by
  unfold offerHeld
  split
  · exact ⟨rfl, rfl⟩
  · exact ⟨offer_attention .., offer_mask ..⟩

theorem setAttention_mask (i : Nat) (s : State) : (setAttention i s).notice.mask = s.notice.mask := by
  unfold setAttention
  split <;> rfl

/-- A station's attention bit is a listed one. -/
theorem setAttention_unlisted (n : StationId) {s : State} (h : s.notice.attention &&& 0x7F000000 = 0) :
    (setAttention n.1 s).notice.attention &&& 0x7F000000 = 0 := by
  have hbit : BitVec.twoPow 32 n.1 &&& (0x7F000000 : Word) = 0 := by
    revert n
    decide
  unfold setAttention
  split
  · exact h
  · show (s.notice.attention ||| BitVec.twoPow 32 n.1) &&& 0x7F000000 = 0
    rw [BitVec.and_comm, BitVec.and_or_distrib_left, BitVec.and_comm, h, BitVec.and_comm, hbit]
    rfl

/-- The registers of another state are legal when they are the same. -/
theorem registersLegal_of_eq {s t : State} (h : RegistersLegal s) (ha : t.notice.attention = s.notice.attention)
    (hm : t.notice.mask = s.notice.mask) (hp : t.ctl.period = s.ctl.period) : RegistersLegal t := by
  unfold RegistersLegal
  rw [ha, hm, hp]
  exact h

theorem registersLegal_kept : KeptByControl RegistersLegal where
  contents h _ _ _ _ := h
  line h _ := registersLegal_of_eq h (by simp) (by simp) (by simp)
  offer h _ := registersLegal_of_eq h (offer_attention ..) (offer_mask ..) (by simp)
  partHalf h n _ := registersLegal_of_eq h (queuePartHalf_attention ..) (queuePartHalf_mask ..) (by simp)
  withdraw h _ _ := h
  attention h n _ := ⟨setAttention_unlisted n h.1, by rw [setAttention_mask]; exact h.2.1, by simpa using h.2.2⟩
  kick h := registersLegal_of_eq h (noticeKick_attention _) (noticeKick_mask _) (by simp)
  model h _ _ _ _ _ := h
  control h hc := ⟨h.1, h.2.1, hc h.2.2⟩
  anyLine h _ _ := registersLegal_of_eq h (by simp) (by simp) (by simp)
  registers h ha hm := ⟨ha h.1, hm h.2.1, h.2.2⟩
  requests h _ _ := h
  refill h := registersLegal_of_eq h (refill_attention_mask _).1 (refill_attention_mask _).2 (by simp)
  heldOffered {s before after e n} h _ _ log := by
    have hr := refill_attention_mask
      ({ s with engine := { s.engine with queue := before ++ after }, sentLog := log } : State)
    have ho := offerHeld_attention_mask n (refill
      { s with engine := { s.engine with queue := before ++ after }, sentLog := log })
    exact registersLegal_of_eq h (ho.1.trans hr.1) (ho.2.trans hr.2) (by simp)
  coldReset _ := ⟨BitVec.zero_and, BitVec.zero_and, show (1000 : Half) ≠ 0 by decide⟩
  softReset h := ⟨BitVec.zero_and, h.2.1, show (1000 : Half) ≠ 0 by decide⟩

/-- Settles O7: an event sets a listed bit, a write to NOTICE_MASK stores the listed ones, and CONTROL a period other than 0. -/
theorem registersStayLegal : Obligations.RegistersStayLegal :=
  fun _ _ h ht => step_keeps_of_part registersLegal_kept.keptByPart h ht

end Sys2Proof.Proofs
end

section
/-! PROOFS. The sync lines follow the part state and the use flags (R157, R161, R162). -/

namespace Sys2Proof.Proofs

open Sys2Proof.Machine Sys2Proof.Laws

/-- The invariant reads Part Control and the drives of the lines alone. -/
theorem linesFollowUse_of_eq {s t : State} (h : LinesFollowUse s) (hc : t.ctl = s.ctl)
    (hl : ∀ l, (t.line l).drive = .off ↔ (s.line l).drive = .off) : LinesFollowUse t := by
  intro l
  rw [ne_eq, hl l, hc]
  exact h l

/-- The lines of another state that has the same ones. -/
theorem line_of_eq {s t : State} (ha : t.lineA = s.lineA) (hb : t.lineB = s.lineB) (l : Line) : t.line l = s.line l := by
  cases l
  · exact ha
  · exact hb

/-- The invariant of another state that has the same Part Control and lines. -/
theorem linesFollowUse_of_lines {s t : State} (h : LinesFollowUse s) (hc : t.ctl = s.ctl) (ha : t.lineA = s.lineA)
    (hb : t.lineB = s.lineB) : LinesFollowUse t :=
  linesFollowUse_of_eq h hc fun l => by rw [line_of_eq ha hb l]

/-- Outside ACTIVE every line is OFF. -/
theorem drive_off_of_not_active {s : State} (h : LinesFollowUse s) (hs : s.ctl.state ≠ .active) (l : Line) :
    (s.line l).drive = .off := by
  by_contra hd
  exact hs ((h l).mp hd).1

/-- With every line OFF the invariant holds outside ACTIVE. -/
theorem linesFollowUse_of_off {s : State} (hs : s.ctl.state ≠ .active) (h : ∀ l, (s.line l).drive = .off) :
    LinesFollowUse s :=
  fun l => iff_of_false (fun hd => hd (h l)) (fun ha => hs ha.1)

/-- A change of Part Control from one state other than ACTIVE to another. -/
theorem linesFollowUse_control {s : State} (h : LinesFollowUse s) {c : Control} (hs : s.ctl.state ≠ .active)
    (hc : c.state ≠ .active) : LinesFollowUse { s with ctl := c } :=
  linesFollowUse_of_off hc fun l => by
    have hl : ({ s with ctl := c } : State).line l = s.line l := line_of_eq rfl rfl l
    rw [hl]
    exact drive_off_of_not_active h hs l

/-! ### The engine leaves the lines -/

theorem linesFollowUse_kept : KeptByEngine LinesFollowUse where
  contents h _ _ _ _ := linesFollowUse_of_lines h rfl rfl rfl
  line {s l x} h hx := linesFollowUse_of_eq h (by simp) fun k => by
    rw [line_setLine]
    split
    case isTrue hk =>
      subst hk
      exact hx
    case isFalse => exact Iff.rfl
  offer h _ := linesFollowUse_of_lines h (by simp) (by simp) (by simp)
  partHalf h _ _ := linesFollowUse_of_lines h (by simp) (by simp) (by simp)
  withdraw h _ _ := linesFollowUse_of_lines h rfl rfl rfl
  attention h _ _ := linesFollowUse_of_lines h (by simp) (by simp) (by simp)
  kick h := linesFollowUse_of_lines h (by simp) (by simp) (by simp)
  model h _ _ _ _ _ := linesFollowUse_of_lines h rfl rfl rfl
  registers h _ _ := linesFollowUse_of_lines h rfl rfl rfl
  requests h _ _ := linesFollowUse_of_lines h rfl rfl rfl
  refill h := linesFollowUse_of_lines h (by simp) (by simp) (by simp)
  heldOffered h _ _ _ := linesFollowUse_of_lines h (by simp) (by simp) (by simp)

/-! ### The use flags -/

/-- A line is judged: in PULL and OPEN alone its drive follows, and it stays out of OFF. -/
theorem judgeLine_off_iff (l h : Line) (s : State) :
    ((judgeLine l s).line h).drive = .off ↔ (s.line h).drive = .off := by
  have key (d : Drive) (hs : (s.line l).drive ≠ .off) (hd : d ≠ .off) :
      ((setDrive l d s).line h).drive = .off ↔ (s.line h).drive = .off := by
    obtain ⟨hset, _, _, hne⟩ := setDrive_spec l d s
    by_cases hh : h = l
    · subst hh
      rw [hset]
      exact iff_of_false hd hs
    · rw [hne h hh]
  unfold judgeLine
  split
  case h_1 hd =>
    split
    · exact key _ (by simp [hd]) (by decide)
    · exact Iff.rfl
  case h_2 hd =>
    split
    · exact Iff.rfl
    · exact key _ (by simp [hd]) (by decide)
  all_goals exact Iff.rfl

/-- A line that takes its use flag is out of OFF exactly when the flag is set; the other line stands. -/
theorem applyUse_off_iff (l h : Line) (s : State) :
    ((applyUse l s).line h).drive = .off ↔
      if h = l then s.ctl.useFlag l = false else (s.line h).drive = .off := by
  have hset (d : Drive) := setDrive_spec l d s
  unfold applyUse
  by_cases hh : h = l
  · subst hh
    rw [if_pos rfl]
    split
    case isTrue hu =>
      split
      case isTrue => rw [judgeLine_off_iff, (hset .pull).1, hu]; simp
      case isFalse hd => simp [hd, hu]
    case isFalse hu =>
      split
      case isTrue hd => simp [hd, hu]
      case isFalse hd => simp [(hset .off).1, hu]
  · rw [if_neg hh]
    split
    · split
      · rw [judgeLine_off_iff, (hset .pull).2.2.2 h hh]
      · exact Iff.rfl
    · split
      · exact Iff.rfl
      · rw [(hset .off).2.2.2 h hh]

theorem applyUse_ctl (l : Line) (s : State) : (applyUse l s).ctl = s.ctl := by
  unfold applyUse
  (repeat' split) <;> simp

/-- In ACTIVE the lines follow once both have taken their use flags. -/
theorem applyUses_linesFollowUse {s : State} (hs : s.ctl.state = .active) : LinesFollowUse (applyUses s) := by
  intro l
  unfold applyUses
  simp only [ne_eq, applyUse_off_iff, applyUse_ctl, hs]
  cases l <;> simp

/-! ### The part state -/

/-- A quiesce switches both lines OFF, whatever they were. -/
theorem enterQuiesce_linesFollowUse (d : Destination) (s : State) : LinesFollowUse (enterQuiesce d s) := by
  unfold enterQuiesce
  dsimp only
  generalize hu : startDrain _ = u
  have hctl : u.ctl.state = .quiescing := by
    rw [← hu]
    simp [startDrain]
  refine linesFollowUse_kept.foldl (fun n h => linesFollowUse_kept.halts.quiesceStation h n trivial) _
    (linesFollowUse_of_off (by simp [hctl]) fun l => ?_)
  obtain ⟨hb, _, _, hneb⟩ := setDrive_spec .b .off (setDrive .a .off u)
  obtain ⟨ha, _⟩ := setDrive_spec .a .off u
  cases l
  · rw [hneb .a (by decide), ha]
  · exact hb

theorem enterActive_linesFollowUse (s : State) : LinesFollowUse (enterActive s) := by
  unfold enterActive
  dsimp only
  refine linesFollowUse_kept.kick (applyUses_linesFollowUse ?_)
  rw [foldl_keeps State.ctl (fun t n => queuePartHalf_ctl n t)]
  simp [beginSweep]

/-- A write to CONTROL that changes the use flags: outside ACTIVE the lines stay OFF, in ACTIVE they take the flags or the part
leaves ACTIVE. -/
theorem controlReact_linesFollowUse {s : State} (h : s.ctl.state ≠ .active → ∀ l, (s.line l).drive = .off) :
    LinesFollowUse (controlReact s) := by
  have stays {c : Control} (hs : s.ctl.state ≠ .active) (hc : c.state ≠ .active) : LinesFollowUse { s with ctl := c } :=
    linesFollowUse_of_off hc fun l => (congrArg SyncLine.drive (line_of_eq rfl rfl l)).trans (h hs l)
  unfold controlReact
  split
  case h_1 hs _ =>
    unfold startRequest
    split
    · exact enterActive_linesFollowUse s
    · exact stays (by simp [hs]) (by simp [hs])
  case h_3 hs _ => exact applyUses_linesFollowUse hs
  case h_4 => exact enterQuiesce_linesFollowUse _ s
  case h_7 hs _ =>
    unfold leaveFaulted
    split
    · exact stays (by simp [hs]) (by simp)
    · exact stays (by simp [hs]) (by simp [hs])
  case h_2 hs _ | h_6 hs _ => exact stays (c := s.ctl) (by simp [hs]) (by simp [hs])
  case h_5 hs => exact stays (c := s.ctl) (by simp [hs]) (by simp [hs])

theorem controlWrite_linesFollowUse {s : State} (h : LinesFollowUse s) (w : Word) (be : BitVec 4) :
    LinesFollowUse (controlWrite w be s) := by
  unfold controlWrite
  dsimp only
  split
  · exact linesFollowUse_of_off (by simp [softReset, State.keepModel, State.reset]) fun l => by cases l <;> rfl
  · refine controlReact_linesFollowUse fun hs l => ?_
    exact (congrArg SyncLine.drive (line_of_eq rfl rfl l)).trans (drive_off_of_not_active h hs l)

theorem linesFollowUse_keptByPart : KeptByPart LinesFollowUse where
  toKeptByEngine := linesFollowUse_kept
  base {s} h _ _ _ := by
    intro l
    have hl := h l
    cases l <;> exact hl
  controlWrite h := controlWrite_linesFollowUse h _ _
  coldReset _ := linesFollowUse_of_off (by simp [coldReset, State.keepModel, State.reset]) fun l => by cases l <;> rfl
  sweepFault {s} h := by
    unfold sweepFault
    dsimp only
    split
    · exact enterQuiesce_linesFollowUse _ _
    · exact linesFollowUse_kept.setSweep h
  enterConfig h hs := linesFollowUse_control h (by simp [hs]) (by simp)
  quiesceComplete {s} h hs := by
    unfold quiesceComplete
    split
    · exact linesFollowUse_control h (by simp [hs]) (by simp)
    · exact linesFollowUse_kept.kick (linesFollowUse_of_lines
        (linesFollowUse_control h (c := { s.ctl with state := .faulted }) (by simp [hs]) (by simp))
        (by simp) (by simp) (by simp))

/-- Settles O6: outside ACTIVE every line is OFF, each event that enters or leaves ACTIVE or writes the use flags sets the lines
by them, and no other event takes a line into or out of OFF. -/
theorem linesFollowPartStateAndUse : Obligations.LinesFollowPartStateAndUse :=
  fun _ _ h ht => step_keeps_of_part linesFollowUse_keptByPart h ht

end Sys2Proof.Proofs
end

section
/-! PROOFS. What leaves the stations' contexts alone. -/

namespace Sys2Proof.Proofs

open Sys2Proof.Machine Sys2Proof.Laws

/-- A state with the same stations shows the same contexts. -/
theorem ctx_congr {s t : State} (h : s.stations = t.stations) (n : StationId) : s.ctx n = t.ctx n :=
  congrArg Station.ctx (st_congr h n)

/-- A station whose context stands while its other parts change. -/
theorem ctx_setSt_same (s : State) (n m : StationId) {x : Station} (h : x.ctx = s.ctx n) : (s.setSt n x).ctx m = s.ctx m := by
  rw [ctx_setSt]
  split
  case isTrue e => rw [e, h]
  case isFalse => rfl

theorem setLink_ctx (s : State) (n m : StationId) (x : Link) : (s.setLink n x).ctx m = s.ctx m := ctx_setSt_same s n m rfl

theorem setPower_ctx (s : State) (n m : StationId) (x : Power) : (s.setPower n x).ctx m = s.ctx m := ctx_setSt_same s n m rfl

@[simp] theorem putLink_ctx (n m : StationId) (l : Link) (s : State) : (putLink n l s).ctx m = s.ctx m := by
  obtain ⟨hst, ⟨_, hne⟩, _, _⟩ := putLink_spec n l s
  by_cases e : m = n
  · rw [e, State.ctx, hst]
  · rw [State.ctx, hne m e]

@[simp] theorem enterRecover_ctx (n m : StationId) (s : State) : (enterRecover n s).ctx m = s.ctx m := by
  unfold enterRecover
  dsimp only
  rw [setLink_ctx, putLink_ctx]

@[simp] theorem linkIdle_ctx (n m : StationId) (s : State) : (linkIdle n s).ctx m = s.ctx m := putLink_ctx ..

@[simp] theorem beginBreak_ctx (n m : StationId) (s : State) : (beginBreak n s).ctx m = s.ctx m := putLink_ctx ..

@[simp] theorem cutLink_ctx (n m : StationId) (s : State) : (cutLink n s).ctx m = s.ctx m := by
  unfold cutLink
  split
  case h_1 | h_2 | h_3 | h_4 | h_5 => exact enterRecover_ctx ..
  all_goals exact setLink_ctx ..

@[simp] theorem setSupply_ctx (n m : StationId) (x : SupplyState) (s : State) : (setSupply n x s).ctx m = s.ctx m := by
  obtain ⟨_, hctx, _, _, _, hne⟩ := setSupply_spec n x s
  by_cases e : m = n
  · rw [e, hctx]
  · rw [State.ctx, hne m e]

@[simp] theorem abandonUnits_ctx (n m : StationId) (s : State) : (abandonUnits n s).ctx m = s.ctx m := rfl

@[simp] theorem startUnits_ctx (n m : StationId) (c : StartCond) (w : Word) (s : State) :
    (startUnits n c w s).ctx m = s.ctx m := rfl

@[simp] theorem bindUnit_ctx (u : UnitId) (n m : StationId) (slot : SlotId) (arm : ArmSettings) (s : State) :
    (bindUnit u n slot arm s).ctx m = s.ctx m := rfl

@[simp] theorem abandonCollect_ctx (n m : StationId) (slot : SlotId) (s : State) :
    (abandonCollect n slot s).ctx m = s.ctx m := ctx_congr (by simp) m

@[simp] theorem releasePulse_ctx (a : Arrival) (m : StationId) (s : State) : (releasePulse a s).1.ctx m = s.ctx m := by
  unfold releasePulse
  split
  · rfl
  · split
    · exact startPress_ctx ..
    all_goals rfl

@[simp] theorem liftChan_ctx (n m : StationId) (c : ChannelId) (s : State) : (liftChan n c s).ctx m = s.ctx m :=
  setChan_ctx ..

@[simp] theorem setDrive_ctx (l : Line) (d : Drive) (m : StationId) (s : State) : (setDrive l d s).ctx m = s.ctx m :=
  ctx_congr (by simp) m

@[simp] theorem refill_ctx (m : StationId) (s : State) : (refill s).ctx m = s.ctx m := ctx_congr (by simp) m

@[simp] theorem offerHeld_ctx (n m : StationId) (s : State) : (offerHeld n s).ctx m = s.ctx m := ctx_congr (by simp) m

/-- Only the backlog of a station's context is touched by an offer of its own. -/
theorem stationOffer_ctx (n m : StationId) (b : Backlog) (s : State) :
    (stationOffer n b s).ctx m =
      if m = n then { s.ctx n with backlog := if s.engine.ownBusy n then some b else none } else s.ctx m := by
  unfold stationOffer
  split <;> by_cases e : m = n <;> simp [e]

end Sys2Proof.Proofs
end

section
/-! PROOFS. The counts and the step in flight of every station agree with its state (R19). -/

namespace Sys2Proof.Proofs

open Sys2Proof.Machine Sys2Proof.Laws

/-! ### One context -/

/-- At rest the counts are equal and nothing is in flight. -/
theorem tallied_rest {c : Context} (hs : c.state = .idle ∨ c.state = .ready ∨ c.state = .halted) :
    c.Tallied ↔ c.taken = c.retired ∧ c.step = none ∧ c.posting = .none := by
  unfold Context.Tallied
  rcases hs with h | h | h <;> rw [h]

theorem tallied_fetching {c : Context} (hs : c.state = .fetching) :
    c.Tallied ↔ c.taken = c.retired + 1 ∧ c.step = none ∧ c.posting = .none := by
  unfold Context.Tallied
  rw [hs]

/-- The states in which a step is in flight. -/
def Context.AtStep (c : Context) : Prop := c.state = .running ∨ c.state = .waitingUnit ∨ c.state = .atBarrier

theorem tallied_atStep {c : Context} (hs : Context.AtStep c) :
    c.Tallied ↔ c.taken = c.retired + 1 ∧ c.step.isSome = true ∧ c.posting = .none := by
  unfold Context.Tallied
  rcases hs with h | h | h <;> rw [h]

/-- A step is in flight in these states alone. -/
theorem atStep_of_step {c : Context} (h : c.Tallied) {st : InFlight} (hst : c.step = some st) : Context.AtStep c := by
  unfold Context.Tallied at h
  unfold Context.AtStep
  cases hs : c.state <;> simp_all

theorem tallied_posting {c : Context} (hs : c.state = .posting) :
    c.Tallied ↔ c.step = none ∧
      match c.posting with
      | .none => False
      | .ordinary _ _ _ | .skipped => c.taken = c.retired + 1
      | .mismatch | .reported _ _ => c.taken = c.retired
      | .discard _ => c.taken = c.retired ∨ c.taken = c.retired + 1 := by
  unfold Context.Tallied
  rw [hs] <;> exact Iff.rfl

/-- The tally reads the state, the counts, the step and the posting. -/
theorem tallied_congr {c d : Context} (hs : d.state = c.state) (ht : d.taken = c.taken) (hr : d.retired = c.retired)
    (hst : d.step = c.step) (hp : d.posting = c.posting) : d.Tallied ↔ c.Tallied := by
  unfold Context.Tallied
  rw [hs, ht, hr, hst, hp]

/-! ### Some stations -/

/-- The stations with the property are tallied. -/
structure TalliedOn (p : StationId → Prop) (s : State) : Prop where
  tallied (m : StationId) (hm : p m) : (s.ctx m).Tallied

/-- Every station but `n` is tallied. -/
abbrev TalliedBut (n : StationId) (s : State) : Prop := TalliedOn (· ≠ n) s

/-- Every station is tallied. -/
abbrev Tallies (s : State) : Prop := TalliedOn (fun _ => True) s

theorem tallies_iff (s : State) : Tallies s ↔ AllTallied s :=
  ⟨fun h m => h.tallied m trivial, fun h => ⟨fun m _ => h m⟩⟩

namespace TalliedOn

variable {p : StationId → Prop} {s : State}

theorem of_ctx {t : State} (h : TalliedOn p s) (hc : ∀ m, t.ctx m = s.ctx m) : TalliedOn p t :=
  ⟨fun m hm => by rw [hc m]; exact h.tallied m hm⟩

/-- A change of anything but the stations. -/
theorem of_stations {t : State} (h : TalliedOn p s) (hc : t.stations = s.stations) : TalliedOn p t :=
  h.of_ctx (ctx_congr hc)

theorem all (h : Tallies s) : TalliedOn p s := ⟨fun m _ => h.tallied m trivial⟩

theorem setSt (h : TalliedOn p s) {n : StationId} {x : Station} (hx : p n → x.ctx.Tallied) : TalliedOn p (s.setSt n x) := by
  refine ⟨fun m hm => ?_⟩
  rw [ctx_setSt]
  split
  case isTrue e => exact hx (e ▸ hm)
  case isFalse => exact h.tallied m hm

theorem setCtx (h : TalliedOn p s) {n : StationId} {x : Context} (hx : p n → x.Tallied) : TalliedOn p (s.setCtx n x) :=
  h.setSt hx

/-- A change of the context's other fields. -/
theorem setCtx_same (h : TalliedOn p s) {n : StationId} {x : Context} (hs : x.state = (s.ctx n).state)
    (ht : x.taken = (s.ctx n).taken) (hr : x.retired = (s.ctx n).retired) (hst : x.step = (s.ctx n).step)
    (hp : x.posting = (s.ctx n).posting) : TalliedOn p (s.setCtx n x) :=
  h.setCtx fun hn => (tallied_congr hs ht hr hst hp).mpr (h.tallied n hn)

/-- A change of a station's other parts. -/
theorem setSt_same (h : TalliedOn p s) {n : StationId} {x : Station} (hx : x.ctx = s.ctx n) : TalliedOn p (s.setSt n x) :=
  h.of_ctx fun m => ctx_setSt_same s n m hx

theorem stationOffer (h : TalliedOn p s) {n : StationId} {b : Backlog} : TalliedOn p (stationOffer n b s) := by
  refine ⟨fun m hm => ?_⟩
  rw [stationOffer_ctx]
  split
  case isTrue e =>
    subst e
    exact (tallied_congr rfl rfl rfl rfl rfl).mpr (h.tallied m hm)
  case isFalse => exact h.tallied m hm

/-- The end of a step: its station was at a step and posts now. -/
theorem endStep (h : TalliedOn p s) {n : StationId} {code : Code} {result : List Byte} :
    TalliedOn p (endStep n code result s) := by
  unfold Machine.endStep
  split
  case h_1 => exact h
  case h_2 st hst =>
    refine (h.setCtx fun hn => ?_).stationOffer
    have ht := (tallied_atStep (atStep_of_step (h.tallied n hn) hst)).mp (h.tallied n hn)
    exact (tallied_posting rfl).mpr ⟨rfl, ht.1⟩

/-! ### The pool -/

theorem arbitrateUnit (h : TalliedOn p s) {u : UnitId} : TalliedOn p (arbitrateUnit s u) := by
  unfold Machine.arbitrateUnit
  split
  · split
    · exact h
    · rename_i e rest _
      exact TalliedOn.endStep (h.of_stations (t := bindUnit u e.station e.slot e.arm { s with waitList := rest }) rfl)
  · exact h

theorem arbitrate (h : TalliedOn p s) : TalliedOn p (arbitrate s) :=
  foldl_keeps_prop (P := TalliedOn p) (fun _ h => TalliedOn.arbitrateUnit h) _ h

theorem collectUnit (h : TalliedOn p s) {n : StationId} {u : UnitId} : TalliedOn p (collectUnit n u s) :=
  (TalliedOn.endStep (h.of_stations (t := freeOneUnit u s) rfl)).arbitrate

theorem unitDone (h : TalliedOn p s) {u : UnitId} {c : Completion} {x : MeasUnit} : TalliedOn p (unitDone u c x s) := by
  unfold Machine.unitDone
  dsimp only
  generalize ht : s.setUnit u _ = t
  have h' : TalliedOn p t := h.of_stations (by rw [← ht]; rfl)
  split
  · exact h'.collectUnit
  · exact h'

theorem measuredEdge (h : TalliedOn p s) {u : UnitId} : TalliedOn p (measuredEdge u s) := by
  unfold Machine.measuredEdge
  split
  · exact h
  · dsimp only
    split
    · exact h.unitDone
    · exact h.of_stations rfl

theorem windowExpiry (h : TalliedOn p s) {u : UnitId} : TalliedOn p (windowExpiry u s) := by
  unfold Machine.windowExpiry
  dsimp only
  split
  case h_1 | h_2 => exact h
  case h_3 => exact h.unitDone
  case h_4 =>
    split
    case h_4 => exact h
    all_goals exact h.unitDone

theorem collectTimeout (h : TalliedOn p s) {n : StationId} : TalliedOn p (collectTimeout n s) := by
  unfold Machine.collectTimeout
  split
  · exact (h.of_ctx fun m => abandonCollect_ctx ..).endStep.arbitrate
  · exact h

/-! ### Cohorts -/

theorem releaseStation (h : TalliedOn p s) {g : Half} {k : Nat} (a : Arrival) : TalliedOn p (releaseStation g k s a) :=
  TalliedOn.endStep (h.of_ctx fun m => by simp)

theorem releaseRound (h : TalliedOn p s) {k : CohortId} : TalliedOn p (releaseRound k s) :=
  TalliedOn.of_stations (foldl_keeps_prop (P := TalliedOn p) (fun a h => TalliedOn.releaseStation h a) _ h) rfl

theorem judgeLine (h : TalliedOn p s) {l : Line} : TalliedOn p (judgeLine l s) := h.of_ctx fun _ => judgeLine_ctx ..

theorem settleCohort (h : TalliedOn p s) {k : CohortId} : TalliedOn p (settleCohort k s) := by
  unfold Machine.settleCohort
  dsimp only
  refine TalliedOn.judgeLine (TalliedOn.judgeLine ?_)
  split
  · exact h.of_stations rfl
  · split
    · split
      · exact h.releaseRound
      · exact h
    · exact h.of_stations rfl

theorem joinLive (h : TalliedOn p s) {n : StationId} : TalliedOn p (joinLive n s) := by
  unfold Machine.joinLive
  split
  · exact h
  · exact TalliedOn.settleCohort (s := s.setCohort _ _) (h.of_stations rfl)

theorem leaveLive (h : TalliedOn p s) {n : StationId} : TalliedOn p (leaveLive n s) := by
  unfold Machine.leaveLive
  split
  · exact h
  · split
    · exact TalliedOn.settleCohort (s := s.setCohort _ _) (h.of_stations rfl)
    · exact h

theorem leaveArrived (h : TalliedOn p s) {n : StationId} : TalliedOn p (leaveArrived n s) := by
  unfold Machine.leaveArrived
  split
  · exact h
  · split
    · exact TalliedOn.settleCohort (s := s.setCohort _ _) (h.of_stations rfl)
    · exact h

/-! ### A step ended from outside -/

theorem cutTaken (h : TalliedOn p s) {n : StationId} {st : InFlight} : TalliedOn p (cutTaken n st s) := by
  unfold Machine.cutTaken
  split
  · exact h.of_ctx fun m => cutLink_ctx ..
  · split
    · exact h.of_ctx fun m => liftChan_ctx ..
    · exact h
  · split
    · exact h.of_ctx fun m => setSupply_ctx ..
    · exact h
  · exact h.of_stations rfl
  · exact h.of_ctx fun m => abandonCollect_ctx ..
  · exact h.leaveArrived
  · exact h

theorem cutFromOutside (h : TalliedOn p s) {n : StationId} {code : Code} : TalliedOn p (cutFromOutside n code s) := by
  unfold Machine.cutFromOutside Machine.cutBlock Machine.cutHanded
  split
  · exact h
  · refine TalliedOn.endStep ?_
    split
    · split
      · exact h.of_ctx fun m => abandonCollect_ctx ..
      · exact h
    · exact h.cutTaken

end TalliedOn

/-- A station that is tallied joins the others. -/
theorem TalliedOn.join {n : StationId} {s : State} (h : TalliedBut n s) (hn : (s.ctx n).Tallied) : Tallies s :=
  ⟨fun m _ => by
    by_cases e : m = n
    · rw [e]; exact hn
    · exact h.tallied m e⟩

/-- The context of a station that is set apart may be anything. -/
theorem TalliedOn.setApart {n : StationId} {s : State} (h : TalliedBut n s) {x : Context} : TalliedBut n (s.setCtx n x) :=
  h.setCtx fun hn => (hn rfl).elim

/-- The tally of one station. -/
theorem TalliedOn.at {s : State} (h : Tallies s) (n : StationId) : (s.ctx n).Tallied := h.tallied n trivial

/-! ### HALTED and IDLE (R31, R37) -/

theorem enterHalted_tallied {n : StationId} {s : State} (h : TalliedBut n s) (hc : (s.ctx n).taken = (s.ctx n).retired)
    (r : HaltReason) : Tallies (enterHalted n r s) := by
  have hothers : TalliedBut n (enterHalted n r s) := by
    unfold enterHalted
    dsimp only
    have hrest := h.setApart (x := { s.ctx n with
      state := .halted, halt := r, deadline := none, skipDebt := 0, badMark := false, step := none, posting := .none,
      backlog := none, pendingHalt := none })
    have hfreed := TalliedOn.arbitrate (TalliedOn.of_ctx hrest (t := abandonUnits n (liftAll n (s.setCtx n _))) fun m => by
      rw [abandonUnits_ctx, liftAll_ctx])
    exact TalliedOn.of_ctx (TalliedOn.leaveLive hfreed (n := n)) fun m => by rw [queuePartHalf_ctx, setAttention_ctx]
  refine hothers.join ?_
  rw [enterHalted_ctx]
  exact (tallied_rest (.inr (.inr rfl))).mpr ⟨hc, rfl, rfl⟩

theorem arriveIdle_tallied {n : StationId} {s : State} (h : TalliedBut n s) (hc : (s.ctx n).taken = (s.ctx n).retired) :
    Tallies (arriveIdle n s) := by
  have hothers : TalliedBut n (arriveIdle n s) := h.setApart.of_ctx fun m => queuePartHalf_ctx ..
  refine hothers.join ?_
  rw [arriveIdle_ctx]
  exact (tallied_rest (.inl rfl)).mpr ⟨hc, rfl, rfl⟩

/-! ### The fetch phase (R22, R23) -/

theorem fetchFailed_tallied {n : StationId} {s : State} (h : TalliedBut n s)
    (hc : (s.ctx n).taken = (s.ctx n).retired + 1) : Tallies (fetchFailed n s) := by
  have hlow : ∀ t : State, t = s.setCtx n { s.ctx n with taken := (s.ctx n).taken - 1 } →
      (t.ctx n).taken = (t.ctx n).retired := by
    rintro t rfl
    rw [ctx_setCtx]
    show (s.ctx n).taken - 1 = (s.ctx n).retired
    rw [hc, BitVec.add_sub_cancel]
  unfold fetchFailed
  dsimp only
  split
  · exact arriveIdle_tallied h.setApart (hlow _ rfl)
  · exact enterHalted_tallied h.setApart (hlow _ rfl) _

theorem fetchEnded_tallied {n : StationId} {s : State} (h : Tallies s) : Tallies (fetchEnded n s) := by
  unfold fetchEnded
  split
  case isTrue hs => exact fetchFailed_tallied h.all ((tallied_fetching hs).mp (h.at n)).1
  case isFalse => exact h

theorem stationOffer_tallied {n : StationId} {b : Backlog} {s : State} (h : Tallies s) :
    Tallies (stationOffer n b s) := h.stationOffer

theorem setCtx_tallied {n : StationId} {x : Context} {s : State} (h : Tallies s) (hx : x.Tallied) :
    Tallies (s.setCtx n x) := h.setCtx fun _ => hx

theorem offerFetch_tallied {n : StationId} {s : State} (h : Tallies s) : Tallies (offerFetch n s) := by
  unfold offerFetch
  split
  · exact stationOffer_tallied h
  · exact fetchEnded_tallied (h.setCtx_same rfl rfl rfl rfl rfl)

theorem offerBacklog_tallied {n : StationId} {s : State} (h : Tallies s) : Tallies (offerBacklog n s) := by
  unfold offerBacklog
  split
  · exact h
  · exact offerFetch_tallied h
  all_goals exact stationOffer_tallied h

theorem abortFetch_tallied {n : StationId} {s : State} (h : Tallies s) (hs : (s.ctx n).state = .fetching) :
    Tallies (abortFetch n s) := by
  unfold abortFetch
  split
  · exact h
  · have hc := ((tallied_fetching hs).mp (h.at n)).1
    generalize ht : ({ s.setCtx n { s.ctx n with backlog := none } with engine := _ } : State) = t
    have hctx : t.ctx n = { s.ctx n with backlog := none } := by
      rw [← ht]
      exact ctx_setCtx ..
    refine fetchFailed_tallied ?_ (by rw [hctx]; exact hc)
    exact TalliedOn.of_stations (h.all.setApart (x := { s.ctx n with backlog := none })) (by rw [← ht])

/-! ### A stop, a trip, an unseat and a disable -/

theorem haltFromOutside_tallied {n : StationId} {s : State} (h : Tallies s) (r : HaltReason) (code : Code) :
    Tallies (haltFromOutside n r code s) := by
  have ht : Tallies (s.setCtx n { s.ctx n with pendingHalt := some r }) :=
    h.setCtx_same rfl rfl rfl rfl rfl
  unfold haltFromOutside
  dsimp only
  split
  · exact h
  · split
    case h_1 | h_2 => exact h
    case h_3 hs => exact enterHalted_tallied h.all ((tallied_rest (.inr (.inl hs))).mp (h.at n)).1 r
    case h_4 hs => exact abortFetch_tallied ht (by rw [ctx_setCtx]; exact hs)
    case h_8 => exact ht
    all_goals exact ht.cutFromOutside.arbitrate

theorem disablePhase_tallied {n : StationId} {s : State} (h : Tallies s) : Tallies (disablePhase n s) := by
  unfold disablePhase
  split
  case h_1 | h_2 => exact h
  case h_3 hs => exact arriveIdle_tallied h.all ((tallied_rest (.inr (.inl hs))).mp (h.at n)).1
  case h_4 hs => exact arriveIdle_tallied h.all ((tallied_rest (.inr (.inr hs))).mp (h.at n)).1
  case h_5 hs => exact abortFetch_tallied h hs
  all_goals exact h.cutFromOutside

theorem takeDisable_tallied {n : StationId} {s : State} (h : Tallies s) : Tallies (takeDisable n s) := by
  unfold takeDisable
  split
  · exact h
  · have hset : Tallies (s.setCtx n { s.ctx n with disabling := true }) :=
      h.setCtx_same rfl rfl rfl rfl rfl
    have hleft := (hset.of_ctx fun m => setSupply_ctx n m .off _).leaveLive (n := n)
    have hphase := disablePhase_tallied (n := n) (hleft.of_ctx fun m => liftAll_ctx n m _)
    exact TalliedOn.arbitrate (hphase.of_ctx fun m => abandonUnits_ctx ..)

theorem quiesceStation_tallied {n : StationId} {s : State} (h : Tallies s) : Tallies (quiesceStation s n) := by
  unfold quiesceStation
  dsimp only
  split
  case isTrue hs => exact abortFetch_tallied (takeDisable_tallied h) hs
  case isFalse => exact takeDisable_tallied h

/-! ### The way out of POSTING (R20, R29, R30) -/

theorem takeNext_tallied {n : StationId} {s : State} (h : TalliedBut n s) (hc : (s.ctx n).taken = (s.ctx n).retired)
    (hst : (s.ctx n).step = none) : Tallies (takeNext n s) := by
  unfold takeNext
  split
  · exact h.setApart.join
      (by rw [ctx_setCtx]; exact (tallied_rest (.inr (.inl rfl))).mpr ⟨hc, hst, rfl⟩)
  · split
    · refine offerFetch_tallied (h.setApart.join ?_)
      rw [ctx_setCtx]
      exact (tallied_fetching rfl).mpr ⟨congrArg (· + 1) hc, hst, rfl⟩
    · refine stationOffer_tallied (h.setApart.join ?_)
      rw [ctx_setCtx]
      exact (tallied_posting rfl).mpr ⟨hst, congrArg (· + 1) hc⟩

theorem leavePosting_tallied {n : StationId} {s : State} (h : TalliedBut n s) (hc : (s.ctx n).taken = (s.ctx n).retired)
    (hst : (s.ctx n).step = none) : Tallies (leavePosting n s) := by
  unfold leavePosting
  dsimp only
  split
  · exact arriveIdle_tallied h hc
  · split
    · exact enterHalted_tallied h hc _
    · split
      · exact enterHalted_tallied h hc _
      · exact takeNext_tallied h hc hst

theorem applyClass_tallied {n : StationId} {s : State} (h : TalliedBut n s) (hc : (s.ctx n).taken = (s.ctx n).retired)
    (hst : (s.ctx n).step = none) (code : Code) (d : Disposition) : Tallies (applyClass n code d s) :=
  leavePosting_tallied h.setApart (by rw [ctx_setCtx]; exact hc) (by rw [ctx_setCtx]; exact hst)

theorem reportPosting_tallied {n : StationId} {s : State} (h : TalliedBut n s) (hs : (s.ctx n).state = .posting)
    (hc : (s.ctx n).taken = (s.ctx n).retired) (hst : (s.ctx n).step = none) (code : Code) (d : Disposition) :
    Tallies (reportPosting n code d s) := by
  unfold reportPosting
  split
  · exact h.setApart.join (by rw [ctx_setCtx]; exact (tallied_posting (by exact hs)).mpr ⟨hst, hc⟩)
  · exact applyClass_tallied h hc hst code d

/-- A posting's outcome is retired: with the retired count raised the counts are equal. -/
theorem retire_tallied {n : StationId} {s : State} (h : Tallies s) (hs : (s.ctx n).state = .posting) :
    Tallies (retire n s) := by
  obtain ⟨hst, hp⟩ := (tallied_posting hs).mp (h.at n)
  unfold retire
  split
  case h_1 code flag d hpost =>
    rw [hpost] at hp
    have hbase : TalliedBut n (s.setCtx n { s.ctx n with retired := (s.ctx n).retired + 1 }) :=
      h.all.setApart
    have key : ∀ t : State, (∀ m, t.ctx m = (s.setCtx n { s.ctx n with retired := (s.ctx n).retired + 1 }).ctx m) →
        Tallies (reportPosting n code d t) := by
      intro t ht
      have hn : t.ctx n = { s.ctx n with retired := (s.ctx n).retired + 1 } := by rw [ht, ctx_setCtx]
      exact reportPosting_tallied (TalliedOn.of_ctx hbase ht) (by rw [hn]; exact hs) (by rw [hn]; exact hp)
        (by rw [hn]; exact hst) code d
    unfold retireOrdinary
    dsimp only
    cases flag
    · exact key _ fun m => queuePartHalf_ctx ..
    · exact key _ fun m => (setAttention_ctx ..).trans (queuePartHalf_ctx ..)
  case h_2 hpost =>
    rw [hpost] at hp
    unfold retireSkipped
    generalize ht : queuePartHalf n _ = t
    have hbase : TalliedBut n t := by
      rw [← ht]
      exact TalliedOn.of_ctx h.all.setApart fun m => queuePartHalf_ctx ..
    have hn : t.ctx n = { s.ctx n with retired := (s.ctx n).retired + 1, skipDebt := (s.ctx n).skipDebt - 1 } := by
      rw [← ht, queuePartHalf_ctx, ctx_setCtx]
    exact reportPosting_tallied hbase (by rw [hn]; exact hs) (by rw [hn]; exact hp) (by rw [hn]; exact hst) _ _
  case h_3 hpost =>
    rw [hpost] at hp
    exact leavePosting_tallied h.all hp hst
  case h_4 hpost =>
    rw [hpost] at hp
    exact applyClass_tallied h.all hp hst _ _
  all_goals exact h

theorem discardNext_tallied {n : StationId} {s : State} (h : TalliedBut n s) (hs : (s.ctx n).state = .posting)
    (hc : (s.ctx n).taken = (s.ctx n).retired) (hst : (s.ctx n).step = none) {first : Half}
    (hp : (s.ctx n).posting = .discard first) (last : Half) : Tallies (discardNext n last s) := by
  unfold discardNext
  split
  · exact reportPosting_tallied (TalliedOn.of_ctx h fun m => queuePartHalf_ctx ..) (by rw [queuePartHalf_ctx]; exact hs)
      (by rw [queuePartHalf_ctx]; exact hc) (by rw [queuePartHalf_ctx]; exact hst) _ _
  · refine stationOffer_tallied (h.setApart.join ?_)
    rw [ctx_setCtx]
    refine (tallied_posting (by exact hs)).mpr ⟨hst, ?_⟩
    dsimp only
    rw [hp]
    exact .inr (congrArg (· + 1) hc)

theorem retireDiscarded_tallied {n : StationId} {s : State} (h : Tallies s) (hd : discardedDue s n = true) :
    Tallies (retireDiscarded n s) := by
  simp only [discardedDue, Bool.and_eq_true, beq_iff_eq, bne_iff_ne] at hd
  obtain ⟨⟨⟨hs, _⟩, hne⟩, _⟩ := hd
  obtain ⟨hst, hp⟩ := (tallied_posting hs).mp (h.at n)
  unfold retireDiscarded
  split
  case h_1 last hpost =>
    rw [hpost] at hp
    refine discardNext_tallied (first := last) h.all.setApart ?_ ?_ ?_ ?_ last <;> rw [ctx_setCtx]
    · exact hs
    · exact hp.resolve_left hne
    · exact hst
    · exact hpost
  all_goals exact h

/-! ### Dispatch (R22, R24) -/

theorem fetchCompleted_tallied {n : StationId} {bs : List Byte} {s : State} (h : Tallies s) :
    Tallies (fetchCompleted n bs s) := by
  unfold fetchCompleted
  split
  case isTrue hs =>
    obtain ⟨hc, hst, hp⟩ := (tallied_fetching hs).mp (h.at n)
    split
    · exact fetchFailed_tallied h.all hc
    · unfold dispatch
      dsimp only
      split
      · have hrun (st : InFlight) : Tallies (s.setCtx n { s.ctx n with state := .running, step := some st }) :=
          setCtx_tallied h ((tallied_atStep (.inl rfl)).mpr ⟨hc, rfl, hp⟩)
        split
        · exact (hrun _).endStep
        · exact hrun _
      · refine stationOffer_tallied (setCtx_tallied h ((tallied_posting rfl).mpr ⟨hst, ?_⟩))
        show (s.ctx n).taken - 1 = (s.ctx n).retired
        rw [hc, BitVec.add_sub_cancel]
  case isFalse => exact h

/-! ### The observation -/

theorem enable_tallied {n : StationId} {x : HostHalf} {s : State} (h : Tallies s)
    (hs : (s.ctx n).state = .idle ∨ (s.ctx n).state = .halted) : Tallies (enable n x s) := by
  obtain ⟨_, hst, hp⟩ := (tallied_rest (hs.imp_right .inr)).mp (h.at n)
  unfold enable enabled badEntry
  dsimp only
  split
  · refine TalliedOn.of_ctx (TalliedOn.joinLive (h.setSt fun _ => ?_)) fun m => queuePartHalf_ctx n m _
    exact (tallied_rest (by exact .inr (.inl rfl))).mpr ⟨rfl, hst, hp⟩
  · split
    case isTrue hh =>
      refine TalliedOn.of_ctx (setCtx_tallied h ?_) fun m => queuePartHalf_ctx n m _
      exact (tallied_rest (by exact .inr (.inr hh))).mpr ⟨rfl, hst, hp⟩
    case isFalse =>
      refine enterHalted_tallied h.all.setApart ?_ _
      rw [ctx_setCtx]
      rfl

theorem modeStep_tallied {n : StationId} {x : HostHalf} {s : State} (h : Tallies s) : Tallies (modeStep n x s) := by
  unfold modeStep
  split
  · split
    case isTrue hs => exact enable_tallied h (.inl hs)
    case isFalse => exact h
  · exact takeDisable_tallied h

theorem stopStep_tallied {n : StationId} {x : HostHalf} {s : State} (h : Tallies s) : Tallies (stopStep n x s) := by
  unfold stopStep
  split
  · exact h
  · have hseen : Tallies (s.setCtx n { s.ctx n with stopSeen := x.stop }) := h.setCtx_same rfl rfl rfl rfl rfl
    exact haltFromOutside_tallied (hseen.of_ctx fun m => queuePartHalf_ctx n m _) _ _

theorem resumeStep_tallied {n : StationId} {x : HostHalf} {s : State} (h : Tallies s) :
    Tallies (resumeStep n x s) := by
  unfold resumeStep
  dsimp only
  split
  · exact h
  · generalize ht : queuePartHalf n _ = t
    have hn : t.ctx n = { s.ctx n with resumeSeen := x.resume } := by rw [← ht, queuePartHalf_ctx, ctx_setCtx]
    have hall : Tallies t := by
      rw [← ht]
      have hseen : Tallies (s.setCtx n { s.ctx n with resumeSeen := x.resume }) := h.setCtx_same rfl rfl rfl rfl rfl
      exact hseen.of_ctx fun m => queuePartHalf_ctx n m _
    split
    case isFalse => exact hall
    case isTrue hs =>
      have hts : (t.ctx n).state = .halted := by rw [hn]; exact hs
      obtain ⟨hc, hst, hp⟩ := (tallied_rest (.inr (.inr hts))).mp (hall.at n)
      split
      · exact enable_tallied hall (.inr hts)
      · split
        · unfold resumeDiscard
          generalize hu : t.setCtx n _ = u
          have hun : u.ctx n = { t.ctx n with state := .posting, halt := .none, posting := .discard (t.ctx n).lastRead } := by
            rw [← hu, ctx_setCtx]
          have hub : TalliedBut n u := by
            rw [← hu]
            exact hall.all.setApart
          have hj : (joinLive n u).ctx n = u.ctx n := joinLive_keeps (by rw [hun]; exact hst) n
          refine discardNext_tallied (first := (t.ctx n).lastRead) (TalliedOn.joinLive hub) ?_ ?_ ?_ ?_ _ <;> rw [hj, hun]
          · exact hc
          · exact hst
        · refine TalliedOn.of_ctx (TalliedOn.joinLive (hall.setCtx fun _ => ?_)) fun m =>
            queuePartHalf_ctx n m _
          exact (tallied_rest (.inr (.inl rfl))).mpr ⟨hc, hst, hp⟩

/-- A cut range is a range. -/
theorem tallied_cut (c : Context) (taken h lastRead : Half) (hc : c.Tallied) :
    Context.Tallied { c with lastRead := lastRead, badMark := false, posting := c.posting.cut taken h } := by
  have hcut : c.posting.cut taken h = c.posting ∨
      ∃ last, c.posting = .discard last ∧ c.posting.cut taken h = .discard h := by
    unfold Posting.cut
    split
    case h_1 last hp =>
      split
      · exact .inr ⟨last, hp, rfl⟩
      · exact .inl rfl
    all_goals exact .inl rfl
  rcases hcut with he | ⟨last, hp, he⟩ <;> rw [he]
  · exact (tallied_congr rfl rfl rfl rfl rfl).mpr hc
  · unfold Context.Tallied at hc ⊢
    rw [hp] at hc
    cases hs : c.state <;> simp_all

theorem handoverStep_tallied {n : StationId} {x : HostHalf} {s : State} (h : Tallies s) :
    Tallies (handoverStep n x s) := by
  unfold handoverStep handoverPassed handoverFailed
  dsimp only
  split
  · exact h
  · split
    · split
      case isTrue hs =>
        obtain ⟨hc, hst, _⟩ := (tallied_rest (.inr (.inl hs))).mp (h.at n)
        exact takeNext_tallied h.all.setApart (by rw [ctx_setCtx]; exact hc)
          (by rw [ctx_setCtx]; exact hst)
      case isFalse => exact setCtx_tallied h (tallied_cut _ _ _ _ (h.at n))
    · split
      case h_1 hs => exact enterHalted_tallied h.all ((tallied_rest (.inr (.inl hs))).mp (h.at n)).1 _
      case h_7 | h_8 => exact h
      all_goals exact h.setCtx_same rfl rfl rfl rfl rfl

theorem observeAll_tallied {data : List Byte} {s : State} (h : Tallies s) : Tallies (observeAll data s) :=
  foldl_keeps_prop (P := Tallies) (fun _ h =>
    handoverStep_tallied (resumeStep_tallied (stopStep_tallied (modeStep_tallied h)))) _ h

/-! ### Steps taken by their blocks -/

/-- A step that its block takes stays in flight. -/
theorem tallied_stepTaken {c : Context} (h : c.Tallied) {st : InFlight} (hst : c.step = some st) (x : InFlight)
    (d : Option Nat) : Context.Tallied { c with step := some x, deadline := d } := by
  have hs := atStep_of_step h hst
  obtain ⟨hc, _, hp⟩ := (tallied_atStep hs).mp h
  exact (tallied_atStep (by exact hs)).mpr ⟨hc, rfl, hp⟩

theorem markTaken_tallied {n : StationId} {st : InFlight} {s : State} (h : Tallies s) (hst : (s.ctx n).step = some st) :
    Tallies (markTaken n st s) := setCtx_tallied h (tallied_stepTaken (h.at n) hst _ _)

theorem markWaiting_tallied {n : StationId} {st : InFlight} {s : State} (h : Tallies s)
    (hst : (s.ctx n).step = some st) : Tallies (markWaiting n st s) := setCtx_tallied h (tallied_stepTaken (h.at n) hst _ _)

/-- A step that waits in one of the step states. -/
theorem markWaiting_at_tallied {n : StationId} {st : InFlight} {s : State} (h : Tallies s)
    (hst : (s.ctx n).step = some st) {state : StationState} (hs : state = .waitingUnit ∨ state = .atBarrier) :
    Tallies ((markWaiting n st s).setCtx n { (markWaiting n st s).ctx n with state := state }) := by
  have ht := (markWaiting_tallied h hst).at n
  have hstep : ((markWaiting n st s).ctx n).step = some { st with handed := false } := by
    rw [markWaiting, ctx_setCtx]
  obtain ⟨hc, hsome, hp⟩ := (tallied_atStep (atStep_of_step ht hstep)).mp ht
  exact setCtx_tallied (markWaiting_tallied h hst) ((tallied_atStep (.inr hs)).mpr ⟨hc, hsome, hp⟩)

theorem endStep_tallied {n : StationId} {code : Code} {result : List Byte} {s : State} (h : Tallies s) :
    Tallies (endStep n code result s) := h.endStep

theorem setSupply_tallied {n : StationId} {x : SupplyState} {s : State} (h : Tallies s) :
    Tallies (setSupply n x s) := h.of_ctx fun _ => setSupply_ctx ..

theorem tripSupply_tallied {n : StationId} {s : State} (h : Tallies s) : Tallies (tripSupply n s) := by
  unfold tripSupply
  dsimp only
  refine haltFromOutside_tallied (TalliedOn.of_ctx (setSupply_tallied (n := n) (x := .tripped) h) fun m => ?_) _ _
  rw [queuePartHalf_ctx, setPower_ctx]

theorem seatChanged_tallied {n : StationId} {closed : Bool} {s : State} (h : Tallies s) :
    Tallies (seatChanged n closed s) := by
  unfold seatChanged
  dsimp only
  generalize ht : queuePartHalf n _ = t
  have hall : Tallies t := by
    rw [← ht]
    refine h.of_ctx fun m => ?_
    rw [queuePartHalf_ctx, emitEdge_ctx, setAttention_ctx, setPower_ctx]
  refine TalliedOn.of_ctx ?_ fun m => noticeKick_ctx ..
  split
  · exact hall
  · unfold unseat
    split
    · exact haltFromOutside_tallied (setSupply_tallied hall) _ _
    · exact haltFromOutside_tallied hall _ _

theorem answerError_tallied {n : StationId} {code : Code} {i : Nat} {l : Link} {s : State} (h : Tallies s) :
    Tallies (answerError n code i l s) :=
  endStep_tallied (h.of_ctx fun m => by rw [enterRecover_ctx, setLink_ctx])

end Sys2Proof.Proofs
end

section
/-! PROOFS. Every command and every REFCLK period keeps the tallies (R19). -/

namespace Sys2Proof.Proofs

open Sys2Proof.Machine Sys2Proof.Laws

variable {s : State}

/-! ### Steps -/

theorem pressStep_tallied (h : Tallies s) {n : StationId} {st : InFlight} (hst : (s.ctx n).step = some st)
    {c : ChannelId} {delay width : Nat} : Tallies (pressStep n st c delay width s) := by
  have ht : Tallies (startPress n c delay width st.attached (markTaken n st s)) :=
    (markTaken_tallied h hst).of_ctx fun m => startPress_ctx ..
  unfold pressStep
  dsimp only
  split
  · split
    · exact ht
    · exact endStep_tallied ht
  all_goals exact endStep_tallied h

theorem putChan_tallied (h : Tallies s) {n : StationId} {c : ChannelId} {x : Channel} : Tallies (s.putChan n c x) :=
  h.setSt_same rfl

theorem tapStep_tallied (h : Tallies s) {n : StationId} {c : ChannelId} {period width count : Nat} :
    Tallies (tapStep n c period width count s) := by
  unfold tapStep
  split
  case h_1 => exact endStep_tallied (h.of_ctx fun m => setChan_ctx ..)
  case h_2 | h_3 => exact endStep_tallied (putChan_tallied h)
  all_goals exact endStep_tallied h

theorem holdStep_tallied (h : Tallies s) {n : StationId} {c : ChannelId} : Tallies (holdStep n c s) := by
  unfold holdStep
  split
  case h_1 | h_2 | h_3 => exact endStep_tallied (h.of_ctx fun m => setChan_ctx ..)
  all_goals exact endStep_tallied h

theorem liftStep_tallied (h : Tallies s) {n : StationId} {c : Option ChannelId} : Tallies (liftStep n c s) := by
  cases c with
  | none => exact endStep_tallied (h.of_ctx fun m => liftAll_ctx ..)
  | some c => exact endStep_tallied (h.of_ctx fun m => liftChan_ctx ..)

theorem pressWidthEnd_tallied (h : Tallies s) {n : StationId} {c : ChannelId} : Tallies (pressWidthEnd n c s) := by
  have ht : Tallies (setChan n c Channel.initial s) := h.of_ctx fun m => setChan_ctx ..
  unfold pressWidthEnd
  dsimp only
  split
  · split
    · exact endStep_tallied ht
    · exact ht
  all_goals exact ht

theorem delayEnd_tallied (h : Tallies s) {n : StationId} {c : ChannelId} : Tallies (delayEnd n c s) := by
  unfold delayEnd
  split <;> exact h.of_ctx fun m => setChan_ctx ..

theorem tapOnEnd_tallied (h : Tallies s) {n : StationId} {c : ChannelId} : Tallies (tapOnEnd n c s) := by
  unfold tapOnEnd
  split <;> exact h.of_ctx fun m => setChan_ctx ..

theorem armStep_tallied (h : Tallies s) {n : StationId} {st : InFlight} (hst : (s.ctx n).step = some st)
    {slot : SlotId} {arm : ArmSettings} : Tallies (armStep n st slot arm s) := by
  unfold armStep
  split
  · exact endStep_tallied h
  · split
    · exact endStep_tallied (h.of_ctx fun m => bindUnit_ctx ..)
    · exact (markWaiting_at_tallied h hst (.inl rfl)).of_stations rfl

theorem collectStep_tallied (h : Tallies s) {n : StationId} {st : InFlight} (hst : (s.ctx n).step = some st)
    {slot : SlotId} : Tallies (collectStep n st slot s) := by
  unfold collectStep
  split
  · exact endStep_tallied h
  · split
    · exact h.collectUnit
    · exact markWaiting_tallied h hst

theorem barrierStep_tallied (h : Tallies s) {n : StationId} {st : InFlight} (hst : (s.ctx n).step = some st)
    {line : Option Line} {channel : Option ChannelId} {delay width : Nat} :
    Tallies (barrierStep n st line channel delay width s) := by
  unfold barrierStep
  split
  · exact endStep_tallied h
  · split
    case isTrue k _ _ =>
      have hat : Tallies (standAt n st k line { station := n, channel := channel, delay := delay, width := width } s) :=
        (markWaiting_at_tallied h hst (.inr rfl)).of_stations rfl
      exact hat.settleCohort
    case isFalse => exact endStep_tallied h

theorem queryStep_tallied (h : Tallies s) {n : StationId} {st : InFlight} (hst : (s.ctx n).step = some st) :
    Tallies (queryStep n st s) := by
  have ht := markTaken_tallied h hst
  unfold queryStep
  dsimp only
  split
  · exact endStep_tallied h
  · split
    · exact ht.of_ctx fun m => beginBreak_ctx ..
    · exact ht.of_ctx fun m => setLink_ctx ..
  all_goals exact ht.of_ctx fun m => setLink_ctx ..

theorem querySent_tallied (h : Tallies s) {n : StationId} : Tallies (querySent n s) := by
  unfold querySent
  split
  case h_1 st _ hst =>
    split
    · exact (markWaiting_tallied h hst).of_ctx fun m => putLink_ctx ..
    · exact endStep_tallied (h.of_ctx fun m => linkIdle_ctx ..)
  case h_2 => exact h.of_ctx fun m => linkIdle_ctx ..

theorem delimiterEnd_tallied (h : Tallies s) {n : StationId} : Tallies (delimiterEnd n s) := by
  unfold delimiterEnd
  split
  · exact h.of_ctx fun m => putLink_ctx ..
  · exact h.of_ctx fun m => enterRecover_ctx ..

theorem answerByte_tallied (h : Tallies s) {n : StationId} {bits : List Bool} : Tallies (answerByte n bits s) := by
  unfold answerByte
  dsimp only
  split
  · exact answerError_tallied h
  · split
    · exact h.of_ctx fun m => setLink_ctx ..
    · exact answerError_tallied h
    · exact endStep_tallied (h.of_ctx fun m => by rw [linkIdle_ctx, setLink_ctx])

theorem answerStart_tallied (h : Tallies s) {n : StationId} : Tallies (answerStart n s) :=
  TalliedOn.of_ctx (h.setCtx_same (x := { s.ctx n with deadline := none }) rfl rfl rfl rfl rfl) fun _ => setLink_ctx ..

theorem lineFaultEntry_tallied (h : Tallies s) {n : StationId} : Tallies (lineFaultEntry n s) := by
  unfold lineFaultEntry
  dsimp only
  split
  · exact endStep_tallied (h.of_ctx fun m => by rw [queuePartHalf_ctx, putLink_ctx])
  · exact h.of_ctx fun m => by rw [queuePartHalf_ctx, putLink_ctx]

theorem awaitAttentionStep_tallied (h : Tallies s) {n : StationId} {st : InFlight} (hst : (s.ctx n).step = some st)
    {fresh : Bool} : Tallies (awaitAttentionStep n st fresh s) := by
  have ht : Tallies (s.setLink n { (s.st n).link with latch := none }) := h.of_ctx fun m => setLink_ctx ..
  unfold awaitAttentionStep
  dsimp only
  split
  · exact endStep_tallied ht
  · exact markWaiting_tallied ht (by rw [setLink_ctx]; exact hst)

theorem recognise_tallied (h : Tallies s) {n : StationId} {stamp : Word} : Tallies (recognise n stamp s) := by
  unfold recognise
  dsimp only
  split
  · exact endStep_tallied (h.of_ctx fun m => by rw [startUnits_ctx, queuePartHalf_ctx, setLink_ctx])
  · exact h.of_ctx fun m => by rw [startUnits_ctx, queuePartHalf_ctx, setLink_ctx]

theorem setupStep_tallied (h : Tallies s) {n : StationId} {v : Settings} : Tallies (setupStep n v s) := by
  unfold setupStep
  split
  · exact endStep_tallied (h.setCtx_same rfl rfl rfl rfl rfl)
  · exact endStep_tallied h

theorem supplyOn_tallied (h : Tallies s) {n : StationId} {st : InFlight} (hst : (s.ctx n).step = some st) :
    Tallies (supplyOn n st s) := by
  have hw := markWaiting_tallied h hst
  have hr : Tallies (startRamp n st s) := by
    unfold startRamp
    dsimp only
    split
    · exact (tripSupply_tallied (setSupply_tallied hw)).of_ctx fun m => noticeKick_ctx ..
    · exact setSupply_tallied hw
  unfold supplyOn
  dsimp only
  split
  · split
    case h_1 => exact endStep_tallied h
    case h_4 => exact hw
    all_goals exact hr
  · exact endStep_tallied h

/-- A station after a reset is at rest. -/
theorem wiped_tallied {c : Context} (h : c = Context.initial) : c.Tallied := by
  rw [h]
  exact (tallied_rest (.inl rfl)).mpr ⟨rfl, rfl, rfl⟩

/-! ### Inputs -/

theorem firstEvaluation_tallied (h : Tallies s) {n : StationId} : Tallies (firstEvaluation n s) := by
  unfold firstEvaluation
  split
  · exact seatChanged_tallied h
  · exact h.of_ctx fun m => setPower_ctx ..

theorem setFilter_ctx (x : Station) (p : FilteredPin) (f : Filter) : (x.setFilter p f).ctx = x.ctx := by
  cases p <;> rfl

theorem inputChange_tallied (h : Tallies s) {i : InputId} {high : Bool} : Tallies (inputChange i high s) := by
  unfold inputChange
  split
  case h_1 n p =>
    refine h.setSt_same ?_
    cases p <;> rfl
  case h_2 => exact h.of_stations (by simp [lineInput])
  case h_3 => exact h.of_ctx fun m => setPower_ctx ..

theorem stationEdge_ctx (n m : StationId) (p : FilteredPin) (high : Bool) (s : State) :
    (stationEdge n p high s).ctx m = s.ctx m := by
  cases p
  case sense0 | sense1 => rfl
  case supplyGood => exact (emitEdge_ctx ..).trans (setPower_ctx ..)
  case trip => exact setPower_ctx ..

theorem acceptFilter_tallied (h : Tallies s) {f : FilterId} : Tallies (acceptFilter f s) := by
  cases f with
  | station n p => exact TalliedOn.of_ctx (h.setSt_same (setFilter_ctx ..)) fun m => stationEdge_ctx ..
  | sync l => exact h.of_stations (by simp [acceptFilter])

/-! ### The lines -/

theorem syncRise_tallied (h : Tallies s) {l : Line} : Tallies (syncRise l s) := by
  have ht : Tallies (s.setLine l { s.line l with riseDue := false }) := h.of_stations (by simp)
  unfold syncRise
  dsimp only
  split
  · refine foldl_keeps_prop (P := Tallies) (fun _ h => TalliedOn.releaseRound h) _ (ht.of_stations ?_)
    unfold holdLine
    split <;> simp
  · exact ht

/-! ### The part, the sweep and the engine -/

theorem enterQuiesce_tallied (h : Tallies s) {d : Destination} : Tallies (enterQuiesce d s) :=
  foldl_keeps_prop (P := Tallies) (fun _ h => quiesceStation_tallied h) _ (h.of_stations (by simp [startDrain]))

theorem applyUse_stations (l : Line) (s : State) : (applyUse l s).stations = s.stations := by
  unfold applyUse
  (repeat' split) <;> simp

theorem beginSweep_stations (s : State) : (beginSweep s).stations = s.stations := offer_stations ..

theorem enterActive_stations (s : State) : (enterActive s).stations = s.stations := by
  unfold enterActive applyUses
  rw [noticeKick_stations, applyUse_stations, applyUse_stations,
    foldl_keeps State.stations (fun t n => queuePartHalf_stations n t), beginSweep_stations]

theorem sweepWrite_stations (s : State) : (sweepWrite s).stations = s.stations := by
  unfold sweepWrite
  split
  · split
    · rfl
    · exact beginSweep_stations s
  · rfl

theorem endSweep_stations (s : State) : (endSweep s).stations = s.stations := by
  unfold endSweep
  dsimp only
  split
  · exact beginSweep_stations _
  · rfl

theorem controlWrite_tallied (h : Tallies s) {w : Word} {be : BitVec 4} : Tallies (controlWrite w be s) := by
  unfold controlWrite
  dsimp only
  split
  · exact ⟨fun m _ => wiped_tallied (congrArg Station.ctx (get_map ..))⟩
  · generalize hu : ({ s with ctl := _ } : State) = u
    have h : Tallies u := h.of_stations (by rw [← hu])
    unfold controlReact
    split
    case h_1 =>
      unfold startRequest
      split
      · exact h.of_stations (enterActive_stations u)
      · exact h.of_stations rfl
    case h_3 => exact h.of_stations ((applyUse_stations ..).trans (applyUse_stations ..))
    case h_4 => exact enterQuiesce_tallied h
    case h_7 =>
      unfold leaveFaulted
      split <;> exact h.of_stations rfl
    all_goals exact h

theorem registerWrite_tallied (h : Tallies s) {reg : Nat} {w : Word} {be : BitVec 4} :
    Tallies (registerWrite reg w be s) := by
  unfold registerWrite
  split
  case h_1 => exact controlWrite_tallied h
  case h_2 => exact h.of_stations rfl
  case h_3 =>
    unfold workLoWrite
    split <;> exact h.of_stations rfl
  case h_4 =>
    unfold workHiWrite
    split <;> exact h.of_stations rfl
  case h_5 => exact h.of_stations (sweepWrite_stations s)
  case h_6 => exact h.of_stations rfl
  case h_7 => exact h.of_stations (by simp [maskWrite, writeMask])
  case h_8 => exact h

theorem holdoffEnd_stations (s : State) : (holdoffEnd s).stations = s.stations := noticeKick_stations _

theorem sendEntry_tallied (h : Tallies s) : Tallies (sendEntry s) := by
  unfold sendEntry
  split
  · exact h
  · unfold sendOne
    split
    · exact h.of_stations rfl
    · unfold afterSend
      split
      case h_1 => exact offerBacklog_tallied (h.of_stations (by simp))
      case h_2 => exact h.of_stations (by simp)
      case h_3 =>
        unfold messageSent
        split
        · exact h.of_stations ((holdoffEnd_stations _).trans (by simp))
        · exact h.of_stations (by simp)
      all_goals exact h.of_stations (by simp)

theorem freeRead_tallied (h : Tallies s) {tag : Nat} : Tallies (freeRead tag s) := h.of_stations (by simp [freeRead])

theorem readDone_tallied (h : Tallies s) {k : ReqKind} {data : List Byte} : Tallies (readDone k data s) := by
  unfold readDone
  split
  case h_1 =>
    refine TalliedOn.of_stations (s := if s.active then observeAll data s else s) ?_ ?_
    · split
      · exact observeAll_tallied h
      · exact h
    · rw [noticeKick_stations, endSweep_stations]
  case h_2 => exact (fetchCompleted_tallied h).of_stations (noticeKick_stations _)
  all_goals exact h

theorem readFaulted_tallied (h : Tallies s) {k : ReqKind} : Tallies (readFaulted k s) := by
  unfold readFaulted
  split
  case h_1 =>
    unfold sweepFault
    dsimp only
    split
    · refine enterQuiesce_tallied ?_
      exact h.of_stations rfl
    · exact h.of_stations rfl
  case h_2 => exact (fetchEnded_tallied h).of_stations (noticeKick_stations _)
  all_goals exact h

theorem completeRead_tallied (h : Tallies s) {e : Entry} {tag first : Nat} {status : CompletionStatus} {data : List Byte} :
    Tallies (completeRead e tag status first data s) := by
  unfold completeRead
  dsimp only
  split
  · exact readFaulted_tallied (freeRead_tallied h)
  · split
    · exact readDone_tallied (freeRead_tallied h)
    · exact h.of_stations rfl

theorem completionTimeout_tallied (h : Tallies s) {tag : Nat} : Tallies (completionTimeout tag s) := by
  unfold completionTimeout
  split
  · exact readFaulted_tallied (freeRead_tallied h)
  · exact h

/-! ### The clock -/

theorem ctx_map_stations {t : State} {f : Station → Station} (hst : t.stations = s.stations.map f) (n : StationId) :
    t.ctx n = (f (s.st n)).ctx := by
  show (t.stations.get n).ctx = _
  rw [hst, get_map]
  rfl

theorem msTick_tallied (h : Tallies s) : Tallies (msTick s) :=
  ⟨fun n hn => by
    rw [ctx_map_stations (s := s) (f := Station.tick) rfl n]
    exact (tallied_congr rfl rfl rfl rfl rfl).mpr (h.tallied n hn)⟩

theorem refclk_tallied (h : Tallies s) : Tallies (refclk s) := by
  refine foldl_keeps_prop (P := Tallies) (fun n h => h.of_ctx fun m => putLink_ctx n m _ _) _ ?_
  exact h.of_ctx fun n => ctx_map_stations (s := s) (t := timersPeriod s) (f := Station.period) rfl n

/-! ### Every command and step -/

theorem exec_tallied {i : Instr} {t : State} (h : Tallies s) (ht : exec i s = .next t) : Tallies t := by
  cases i
  case coldReset =>
    have hreset : Tallies (coldReset s) := ⟨fun m _ => wiped_tallied (congrArg Station.ctx (get_map ..))⟩
    exact prop_of_next hreset ht
  case softReset | startRequest | quiesce | leaveFaulted | syncUseSet | syncUseClear | sweepPeriod =>
    exact prop_of_next (controlWrite_tallied h) ht
  case faultedToConfig => exact prop_of_due h (h.of_stations (t := enterConfig s) rfl) ht
  case sweep => exact prop_of_next (h.of_stations (sweepWrite_stations s)) ht
  case attentionClear w be => exact prop_of_next (h.of_stations (t := clearAttention w be s) rfl) ht
  case noticeMaskWrite => exact prop_of_next (h.of_stations (by simp [maskWrite, writeMask])) ht
  case registerWrite => exact prop_of_next (registerWrite_tallied h) ht
  case msTick => exact prop_of_due h (msTick_tallied h) ht
  case sweepTimerExpiry =>
    refine prop_of_due h (h.of_stations (t := sweepTimerExpiry s) ?_) ht
    unfold sweepTimerExpiry
    split
    · rfl
    · exact beginSweep_stations s
  case sendEntry => exact prop_of_next (sendEntry_tallied h) ht
  case readCompletion =>
    simp only [exec, execReadCompletion] at ht
    split at ht
    · exact prop_of_next (completeRead_tallied h) ht
    · exact prop_of_next h ht
  case completionTimeout => exact prop_of_due h (completionTimeout_tallied h) ht
  case quiesceComplete =>
    refine prop_of_due h (h.of_stations (t := quiesceComplete s) ?_) ht
    unfold quiesceComplete
    split
    · rfl
    · rw [noticeKick_stations, setAttention_stations]
  case messageOffer => exact prop_of_due h (h.of_stations (t := offerMessage s) (offer_stations ..)) ht
  case holdoffEnd => exact prop_of_due h (h.of_stations (holdoffEnd_stations s)) ht
  case retirement n =>
    cases hd : retirementDue s n
    · exact prop_of_next h (by simpa [exec, execRetirement, hd] using ht)
    · have hs : (s.ctx n).state = .posting := by
        simp only [retirementDue, Bool.and_eq_true, beq_iff_eq] at hd
        exact hd.1
      exact prop_of_due h ((retire_tallied h hs).of_ctx fun m => noticeKick_ctx ..) ht
  case discarded n =>
    cases hd : discardedDue s n
    · exact prop_of_next h (by simpa [exec, execDiscarded, hd] using ht)
    · exact prop_of_due h ((retireDiscarded_tallied h hd).of_ctx fun m => noticeKick_ctx ..) ht
  case pauseExpiry => exact prop_of_due h (endStep_tallied h) ht
  case breakBegin => exact prop_of_due h (h.of_ctx fun m => beginBreak_ctx ..) ht
  case bitError => exact prop_of_due h (endStep_tallied (h.of_ctx fun m => enterRecover_ctx ..)) ht
  case querySent => exact prop_of_due h (querySent_tallied h) ht
  case answerStart => exact prop_of_due h (answerStart_tallied h) ht
  case gapTimeout => exact prop_of_due h (answerError_tallied h) ht
  case noAnswer => exact prop_of_due h (endStep_tallied (h.of_ctx fun m => enterRecover_ctx ..)) ht
  case recoverEnd => exact prop_of_due h (h.of_ctx fun m => linkIdle_ctx ..) ht
  case probeEdge => exact prop_of_next (h.of_ctx fun m => putLink_ctx ..) ht
  case lineFaultEntry => exact prop_of_due h (lineFaultEntry_tallied h) ht
  case lineFaultEnd => exact prop_of_due h (h.of_ctx fun m => linkIdle_ctx ..) ht
  case noAttention => exact prop_of_due h (endStep_tallied h) ht
  case breakEnd => exact prop_of_due h (h.of_ctx fun m => putLink_ctx ..) ht
  case delimiterEnd => exact prop_of_due h (delimiterEnd_tallied h) ht
  case delayEnd => exact prop_of_due h (delayEnd_tallied h) ht
  case pressWidthEnd => exact prop_of_due h (pressWidthEnd_tallied h) ht
  case tapOnEnd => exact prop_of_due h (tapOnEnd_tallied h) ht
  case periodBoundary => exact prop_of_due h (h.of_ctx fun m => setChan_ctx ..) ht
  case firstEvaluation => exact prop_of_due h (firstEvaluation_tallied h) ht
  case seatChange => exact prop_of_due h (seatChanged_tallied h) ht
  case inputChange => exact prop_of_next (inputChange_tallied h) ht
  case filterAcceptance => exact prop_of_due h (acceptFilter_tallied h) ht
  case supplyGoodRise => exact prop_of_due h (endStep_tallied (setSupply_tallied h)) ht
  case noSupplyGood => exact prop_of_due h (endStep_tallied (setSupply_tallied h)) ht
  case tripAccepted => exact prop_of_due h ((tripSupply_tallied h).of_ctx fun m => noticeKick_ctx ..) ht
  case lossOfSupplyGood => exact prop_of_due h ((tripSupply_tallied h).of_ctx fun m => noticeKick_ctx ..) ht
  case measuredEdge => exact prop_of_next h.measuredEdge ht
  case windowExpiry => exact prop_of_due h h.windowExpiry ht
  case gateEnd => exact prop_of_due h h.unitDone ht
  case noUnit n =>
    have hleft : Tallies { s with waitList := s.waitList.filter fun e => e.station != n } := h.of_stations rfl
    exact prop_of_due h (endStep_tallied hleft) ht
  case collectTimeout => exact prop_of_due h h.collectTimeout ht
  case barrierTimeout => exact prop_of_due h (endStep_tallied h.leaveArrived) ht
  case syncRise => exact prop_of_due h (syncRise_tallied h) ht
  case syncFall => exact prop_of_due h (h.of_stations (by simp)) ht
  case syncHoldEnd => exact prop_of_due h (h.of_stations (by simp)) ht
  case pause =>
    simp only [exec, execPause] at ht
    split at ht
    case h_1 hst =>
      obtain ⟨_, hst, _⟩ := handedStep_some.mp hst
      split at ht
      · exact prop_of_next (setCtx_tallied h (tallied_stepTaken (h.at _) hst _ _)) ht
      · exact prop_of_next h ht
    case h_2 => exact prop_of_next h ht
  case note =>
    simp only [exec, execNote] at ht
    split at ht
    case h_1 hst =>
      obtain ⟨_, hst, _⟩ := handedStep_some.mp hst
      split at ht
      · exact prop_of_next (endStep_tallied h) ht
      · exact prop_of_next h ht
    case h_2 => exact prop_of_next h ht
  case setup =>
    simp only [exec, execSetup] at ht
    split at ht
    case h_1 hst =>
      obtain ⟨_, hst, _⟩ := handedStep_some.mp hst
      split at ht
      · exact prop_of_next (setupStep_tallied h) ht
      · exact prop_of_next h ht
    case h_2 => exact prop_of_next h ht
  case query =>
    simp only [exec, execQuery] at ht
    split at ht
    case h_1 hst =>
      obtain ⟨_, hst, _⟩ := handedStep_some.mp hst
      split at ht
      · exact prop_of_next (queryStep_tallied h hst) ht
      · exact prop_of_next h ht
    case h_2 => exact prop_of_next h ht
  case awaitAttention =>
    simp only [exec, execAwaitAttention] at ht
    split at ht
    case h_1 hst =>
      obtain ⟨_, hst, _⟩ := handedStep_some.mp hst
      split at ht
      · exact prop_of_next (awaitAttentionStep_tallied h hst) ht
      · exact prop_of_next h ht
    case h_2 => exact prop_of_next h ht
  case press =>
    simp only [exec, execPress] at ht
    split at ht
    case h_1 hst =>
      obtain ⟨_, hst, _⟩ := handedStep_some.mp hst
      split at ht
      · exact prop_of_next (pressStep_tallied h hst) ht
      · exact prop_of_next h ht
    case h_2 => exact prop_of_next h ht
  case tap =>
    simp only [exec, execTap] at ht
    split at ht
    case h_1 hst =>
      obtain ⟨_, hst, _⟩ := handedStep_some.mp hst
      split at ht
      · exact prop_of_next (tapStep_tallied h) ht
      · exact prop_of_next h ht
    case h_2 => exact prop_of_next h ht
  case hold =>
    simp only [exec, execHold] at ht
    split at ht
    case h_1 hst =>
      obtain ⟨_, hst, _⟩ := handedStep_some.mp hst
      split at ht
      · exact prop_of_next (holdStep_tallied h) ht
      · exact prop_of_next h ht
    case h_2 => exact prop_of_next h ht
  case lift =>
    simp only [exec, execLift] at ht
    split at ht
    case h_1 hst =>
      obtain ⟨_, hst, _⟩ := handedStep_some.mp hst
      split at ht
      · exact prop_of_next (liftStep_tallied h) ht
      · exact prop_of_next h ht
    case h_2 => exact prop_of_next h ht
  case arm =>
    simp only [exec, execArm] at ht
    split at ht
    case h_1 hst =>
      obtain ⟨_, hst, _⟩ := handedStep_some.mp hst
      split at ht
      · exact prop_of_next (armStep_tallied h hst) ht
      · exact prop_of_next h ht
    case h_2 => exact prop_of_next h ht
  case collect =>
    simp only [exec, execCollect] at ht
    split at ht
    case h_1 hst =>
      obtain ⟨_, hst, _⟩ := handedStep_some.mp hst
      split at ht
      · exact prop_of_next (collectStep_tallied h hst) ht
      · exact prop_of_next h ht
    case h_2 => exact prop_of_next h ht
  case barrier =>
    simp only [exec, execBarrier] at ht
    split at ht
    case h_1 hst =>
      obtain ⟨_, hst, _⟩ := handedStep_some.mp hst
      split at ht
      · exact prop_of_next (barrierStep_tallied h hst) ht
      · exact prop_of_next h ht
    case h_2 => exact prop_of_next h ht
  case supply =>
    simp only [exec, execSupply] at ht
    split at ht
    case h_1 hst =>
      obtain ⟨_, hst, _⟩ := handedStep_some.mp hst
      split at ht
      · split at ht
        · exact prop_of_next (supplyOn_tallied h hst) ht
        · exact prop_of_next (endStep_tallied (setSupply_tallied h)) ht
      · exact prop_of_next h ht
    case h_2 => exact prop_of_next h ht
  case answerByte =>
    simp only [exec, execAnswerByte] at ht
    split at ht
    · exact prop_of_next (answerByte_tallied h) ht
    · exact prop_of_next h ht
  case attentionRecognition =>
    simp only [exec, execAttentionRecognition] at ht
    split at ht
    · exact prop_of_next (recognise_tallied h) ht
    · exact prop_of_next h ht

/-- Settles O5: each change of a station's counts, step or posting is made in the event that changes its state with them. -/
theorem talliesAgreeWithStationStates : Obligations.TalliesAgreeWithStationStates := by
  intro s t h ht
  rw [← tallies_iff] at h ⊢
  exact step_keeps (P := Tallies) (fun _ _ h => h.of_stations rfl) exec_tallied refclk_tallied h ht

end Sys2Proof.Proofs
end

section
/-! PROOFS. The step and the reset state; the Time Base, one REFCLK period and the ms tick (R48, R50, R52, R105, R106). -/

namespace Sys2Proof.Proofs

open Sys2Proof.Machine Sys2Proof.Laws

/-! ### The step and the state after reset -/

/-- Settles O1: the step's own first case. -/
theorem stepTakesFrontCommand : Obligations.StepTakesFrontCommand := by
  intro s c rest h
  unfold step
  rw [h]

/-- After a reset every station's context is the initial one. -/
theorem reset_ctx (n : StationId) : State.reset.ctx n = Context.initial := by
  have hst : State.reset.st n = Station.initial := by
    show (Vector.replicate 24 Station.initial)[n.1] = _
    rw [Vector.getElem_replicate]
  rw [State.ctx, hst]
  rfl

/-- Settles O9: after a reset the queue is empty, the stations are idle, the lines are OFF and the registers hold their reset
values. -/
theorem resetMeetsTheInvariants : Obligations.ResetMeetsTheInvariants :=
  ⟨Nat.zero_le _, fun n => wiped_tallied (reset_ctx n),
    linesFollowUse_of_off (by simp [State.reset]) (fun l => by cases l <;> rfl),
    ⟨BitVec.zero_and, BitVec.zero_and, show (1000 : Half) ≠ 0 by decide⟩,
    fun _ => Nat.zero_le _, ⟨by decide, by decide⟩⟩

/-! ### The Time Base (R48, R50) -/

/-- What a REFCLK period does to a Time Base in range. -/
theorem timeBase_period {t : TimeBase} (hp : t.prescale < 25) (hm : t.msDiv < 1000) :
    t.period =
      { clock := if t.prescale = 24 then t.clock + 1 else t.clock
        prescale := (t.prescale + 1) % 25
        msDiv := if t.prescale = 24 then (t.msDiv + 1) % 1000 else t.msDiv
        tickDue := t.tickDue || (decide (t.prescale = 24) && decide (t.msDiv = 999))
        firstPeriod := false } := by
  unfold TimeBase.period Config.periodsPerMicro Config.microsPerTick
  by_cases h24 : t.prescale = 24
  · rw [if_neg (by omega), h24]
    by_cases h999 : t.msDiv = 999
    · rw [if_neg (by omega), h999]
      simp
    · rw [if_pos (by omega), Nat.mod_eq_of_lt (a := t.msDiv + 1) (by omega)]
      simp [h999]
  · rw [if_pos (by omega), Nat.mod_eq_of_lt (by omega)]
    simp [h24]

/-- A REFCLK period keeps the Time Base in range. -/
theorem timeBase_period_legal {t : TimeBase} (hp : t.prescale < 25) (hm : t.msDiv < 1000) :
    t.period.prescale < 25 ∧ t.period.msDiv < 1000 := by
  rw [timeBase_period hp hm]
  refine ⟨Nat.mod_lt _ (by decide), ?_⟩
  dsimp only
  split
  · exact Nat.mod_lt _ (by decide)
  · exact hm

/-! ### The links of one REFCLK period (R60, R61, R77) -/

/-- A link after one REFCLK period, its line looked at. -/
def linkAfter (s : State) (n : StationId) : Link := (s.st n).link.period.look (s.ctx n).settings.attnMin s.now

theorem linkTick_st (s : State) (n m : StationId) :
    (linkTick s n).st m = if m = n then { s.st n with link := linkAfter s n } else s.st m := by
  obtain ⟨hn, ⟨_, hne⟩, _, _⟩ := putLink_spec n (s.st n).link.period s
  split
  case isTrue e => rw [e]; exact hn
  case isFalse e => exact hne m e

/-- Another station's period does not matter to a link's. -/
theorem linkAfter_linkTick {s : State} {n m : StationId} (h : m ≠ n) : linkAfter (linkTick s n) m = linkAfter s m := by
  have hst : (linkTick s n).st m = s.st m := by rw [linkTick_st, if_neg h]
  have hnow : (linkTick s n).now = s.now := by simp [State.now]
  unfold linkAfter
  rw [State.ctx, hst, hnow]

/-- The links of a list of stations, each once. -/
theorem foldl_linkTick_st (l : List StationId) (hl : l.Nodup) (s : State) (m : StationId) :
    (l.foldl linkTick s).st m = if m ∈ l then { s.st m with link := linkAfter s m } else s.st m := by
  induction l generalizing s with
  | nil => simp
  | cons n l ih =>
    obtain ⟨hn, hl⟩ := List.nodup_cons.mp hl
    rw [List.foldl_cons, ih hl, linkTick_st]
    by_cases e : m = n
    · subst e
      simp [hn]
    · rw [linkAfter_linkTick e]
      simp [e]

theorem intervalBegun_frame (l : Link) : intervalBegun l = { l with acc := (intervalBegun l).acc, left := (intervalBegun l).left } := by
  unfold intervalBegun
  split <;> rfl

/-- The new interval depends on nothing but the accumulator and the copy. -/
theorem intervalBegun_withMon (l : Link) (x : Monitor) :
    intervalBegun { l with mon := x } = { intervalBegun l with mon := x } := by
  unfold intervalBegun
  dsimp only
  split <;> rfl

/-- The end of a sample interval keeps the state, the monitor and the world outside. -/
structure SampleKept (l m : Link) : Prop where
  state : m.state = l.state
  mon : m.mon = l.mon
  outside : m.outside = l.outside

theorem intervalBegun_kept {l k : Link} (h : SampleKept l k) : SampleKept l (intervalBegun k) := by
  rw [intervalBegun_frame]
  exact ⟨h.state, h.mon, h.outside⟩

theorem sendInterval_kept (l : Link) : SampleKept l l.sendInterval := by
  unfold Link.sendInterval Link.beginBit
  simp only [nextInterval_eq]
  split
  · split
    · exact ⟨rfl, rfl, rfl⟩
    · exact intervalBegun_kept ⟨rfl, rfl, rfl⟩
  · exact intervalBegun_kept ⟨rfl, rfl, rfl⟩

theorem receiveInterval_kept (l : Link) : SampleKept l l.receiveInterval := by
  unfold Link.receiveInterval Link.beginBit
  simp only [nextInterval_eq]
  generalize hm : intervalBegun { l with sample := l.sample + 1, votes := l.vote (l.sample + 1) } = m
  have hk : SampleKept l m := hm ▸ intervalBegun_kept ⟨rfl, rfl, rfl⟩
  split
  · exact intervalBegun_kept ⟨rfl, rfl, rfl⟩
  · split
    · split <;> exact ⟨hk.state, hk.mon, hk.outside⟩
    · exact hk

theorem waitInterval_kept (l : Link) : SampleKept l l.waitInterval := by
  unfold Link.waitInterval
  rw [nextInterval_eq]
  exact intervalBegun_kept ⟨rfl, rfl, rfl⟩

theorem interval_kept (l : Link) : SampleKept l l.interval := by
  unfold Link.interval
  split
  case h_1 | h_2 | h_3 => exact sendInterval_kept l
  case h_4 =>
    split
    · exact receiveInterval_kept l
    · exact waitInterval_kept l
  all_goals exact waitInterval_kept l

/-- What the monitor has noted does not matter to a sample interval. -/
theorem sendInterval_withMon (l : Link) (x : Monitor) :
    ({ l with mon := x } : Link).sendInterval = { l.sendInterval with mon := x } := by
  unfold Link.sendInterval Link.beginBit
  simp only [nextInterval_eq]
  split
  · split
    · rfl
    · exact intervalBegun_withMon { l with bits := l.bits.tail, sample := 0, votes := [] } x
  · exact intervalBegun_withMon
      { l with
        sample := l.sample + 1, votes := l.vote (l.sample + 1),
        mismatch := l.mismatch || (l.sample + 1 == 5 && l.bits.head? != some (majority (l.vote (l.sample + 1)))) } x

theorem receiveInterval_withMon (l : Link) (x : Monitor) :
    ({ l with mon := x } : Link).receiveInterval = { l.receiveInterval with mon := x } := by
  unfold Link.receiveInterval Link.beginBit
  simp only [nextInterval_eq]
  have hm := intervalBegun_withMon { l with sample := l.sample + 1, votes := l.vote (l.sample + 1) } x
  have h0 := intervalBegun_withMon { l with sample := 0, votes := [] } x
  have hv : ({ l with mon := x } : Link).vote (l.sample + 1) = l.vote (l.sample + 1) := rfl
  dsimp only at hm h0 ⊢
  rw [hv, hm, h0]
  generalize intervalBegun { l with sample := l.sample + 1, votes := l.vote (l.sample + 1) } = m
  split
  · rfl
  · split
    · split <;> rfl
    · rfl

theorem waitInterval_withMon (l : Link) (x : Monitor) :
    ({ l with mon := x } : Link).waitInterval = { l.waitInterval with mon := x } := by
  unfold Link.waitInterval
  simp only [nextInterval_eq, ← intervalBegun_withMon]

theorem interval_withMon (l : Link) (x : Monitor) : ({ l with mon := x } : Link).interval = { l.interval with mon := x } := by
  unfold Link.interval
  rw [sendInterval_withMon, receiveInterval_withMon, waitInterval_withMon]
  dsimp only
  split
  case h_4 => split <;> rfl
  all_goals rfl

theorem vote_succ (l : Link) : l.vote (l.sample + 1) = if 2 ≤ l.sample ∧ l.sample ≤ 4 then l.votes ++ [l.high] else l.votes := by
  unfold Link.vote
  congr 1
  exact propext ⟨fun h => by omega, fun h => by omega⟩

theorem interval_of_sending {l : Link} (hs : l.state = .break ∨ l.state = .delimit ∨ l.state = .send) :
    l.interval = l.sendInterval := by
  unfold Link.interval
  rcases hs with h | h | h <;> rw [h]

theorem interval_of_receiving {l : Link} (hs : l.state = .receive) (hb : l.inByte = true) : l.interval = l.receiveInterval := by
  unfold Link.interval
  rw [hs, if_pos hb]

theorem interval_of_waiting {l : Link} (hs : l.state = .recover ∨ (l.state = .receive ∧ l.inByte = false)) :
    l.interval = l.waitInterval := by
  unfold Link.interval
  rcases hs with h | ⟨h, hb⟩
  · rw [h]
  · rw [h, if_neg (by simp [hb])]

/-- A bit being sent (R61, R67). -/
theorem sendInterval_ends (l : Link) :
    let votes := if 2 ≤ l.sample ∧ l.sample ≤ 4 then l.votes ++ [l.high] else l.votes
    let sampled := intervalBegun { l with sample := l.sample + 1, votes := votes }
    (l.sample ≠ 7 →
      l.sendInterval = { sampled with
        mismatch := l.mismatch || (l.sample == 4 && l.bits.head? != some (decide (2 ≤ votes.count true))) }) ∧
    (l.sample = 7 → l.mismatch = true ∨ l.bits.length ≤ 1 → l.sendInterval = { l with bitEnd := true }) ∧
    (l.sample = 7 → l.mismatch = false → 1 < l.bits.length →
      l.sendInterval = intervalBegun { l with bits := l.bits.tail, sample := 0, votes := [] }) := by
  unfold Link.sendInterval Link.beginBit
  simp only [nextInterval_eq, ← vote_succ]
  refine ⟨fun h => ?_, fun h hm => ?_, fun h hm hb => ?_⟩
  · rw [if_neg (by omega)]
    unfold intervalBegun majority
    split <;> simp
  · rw [if_pos (by omega), if_pos hm]
  · rw [if_pos (by omega), if_neg (by simp [hm]; omega)]

/-- A bit of a byte being received (R61, R70, R71). -/
theorem receiveInterval_ends (l : Link) :
    let votes := if 2 ≤ l.sample ∧ l.sample ≤ 4 then l.votes ++ [l.high] else l.votes
    let value := decide (2 ≤ votes.count true)
    let sampled := intervalBegun { l with sample := l.sample + 1, votes := votes }
    (l.sample = 7 → l.receiveInterval = intervalBegun { l with sample := 0, votes := [] }) ∧
    (l.sample ≠ 7 → l.sample ≠ 4 → l.receiveInterval = sampled) ∧
    (l.sample = 4 → l.rxBits.length ≠ 8 + l.copy.stopBits →
      l.receiveInterval = { sampled with rxBits := l.rxBits ++ [value] }) ∧
    (l.sample = 4 → l.rxBits.length = 8 + l.copy.stopBits →
      l.receiveInterval = { sampled with
        inByte := false, rxBits := [], done := some (l.rxBits ++ [value]), wait := some (3 + 8 * l.copy.gapLimit) }) := by
  unfold Link.receiveInterval Link.beginBit majority
  simp only [nextInterval_eq, ← vote_succ, List.length_append, List.length_singleton]
  refine ⟨fun h => ?_, fun h h4 => ?_, fun h hr => ?_, fun h hr => ?_⟩
  · rw [if_pos (by omega)]
  · rw [if_neg (by omega), if_neg (by omega)]
  · rw [if_neg (by omega), if_pos (by omega), if_neg (by omega)]
  · rw [if_neg (by omega), if_pos (by omega), if_pos (by omega)]

/-- The model's sample interval is the one of R60, R61, R67, R70 and R71. -/
theorem interval_ends (l : Link) : IntervalEnds l l.interval := by
  refine ⟨fun hs => ?_, fun hs hb => ?_, fun hs => ?_⟩
  · rw [interval_of_sending hs]
    exact sendInterval_ends l
  · rw [interval_of_receiving hs hb]
    exact receiveInterval_ends l
  · rw [interval_of_waiting hs]
    unfold Link.waitInterval
    rw [nextInterval_eq]
    rfl

/-- The line's level is driven in BREAK and SEND alone, by the bit on the line. -/
theorem high_eq_of {l m : Link} (hs : m.state = l.state) (hb : l.state = .send → m.bits = l.bits) (ho : m.outside = l.outside) :
    m.high = l.high := by
  have hd : m.drives = l.drives := by
    unfold Link.drives
    rw [hs]
    cases h : l.state
    case send => rw [hb h]
    all_goals rfl
  unfold Link.high
  rw [ho, hd]

/-- A period of a link: the level is one period older, and the bit timer goes on. -/
theorem period_cases (l : Link) :
    (¬BitTimerRuns l → l.period = { l with mon := { l.mon with age := l.mon.age + 1 } }) ∧
    (BitTimerRuns l → 1 < l.left → l.period = { l with left := l.left - 1, mon := { l.mon with age := l.mon.age + 1 } }) ∧
    (BitTimerRuns l → l.left ≤ 1 → l.period = { l.interval with mon := { l.mon with age := l.mon.age + 1 } }) := by
  unfold Link.period
  dsimp only
  rw [interval_withMon]
  have ht : ({ l with mon := { l.mon with age := l.mon.age + 1 } } : Link).timing = l.timing := rfl
  rw [ht]
  refine ⟨fun h => ?_, fun h hl => ?_, fun h hl => ?_⟩
  · rw [if_neg (fun c => h ((timing_iff l).mp c))]
  · rw [if_pos ((timing_iff l).mpr h), if_neg (by omega)]
  · rw [if_pos ((timing_iff l).mpr h), if_pos hl]

theorem period_kept (l : Link) :
    l.period.state = l.state ∧ l.period.outside = l.outside ∧ l.period.mon = { l.mon with age := l.mon.age + 1 } := by
  obtain ⟨h0, h1, h2⟩ := period_cases l
  by_cases hr : BitTimerRuns l
  · rcases Nat.lt_or_ge 1 l.left with hl | hl
    · rw [h1 hr hl]
      exact ⟨rfl, rfl, rfl⟩
    · rw [h2 hr hl]
      exact ⟨(interval_kept l).state, (interval_kept l).outside, rfl⟩
  · rw [h0 hr]
    exact ⟨rfl, rfl, rfl⟩

/-- A link that sees no other level than its monitor's is left as it is; one that sees a bit of its own notes it. -/
theorem look_cases (l : Link) (a : Nat) (w : Word) :
    (l.high = l.mon.high → l.look a w = l) ∧
    (l.high ≠ l.mon.high → l.state = .send →
      l.look a w = { l with mon := { high := l.high, age := 0, beganIn := l.state, attnMin := a } }) := by
  unfold Link.look
  refine ⟨fun h => if_pos h, fun h hs => ?_⟩
  rw [if_neg h, hs]

/-- A link that is looked at has noted the present level. -/
theorem look_mon_high (l : Link) (a : Nat) (w : Word) : (l.look a w).mon.high = l.high := by
  unfold Link.look Link.beginWait Link.beginByte Link.beginBit
  simp only [nextInterval_eq]
  split
  case isTrue h => exact h.symm
  case isFalse =>
    split
    case h_1 => split <;> rfl
    case h_2 => rw [intervalBegun_frame]
    case h_5 =>
      split
      · rfl
      · rw [intervalBegun_frame]
    all_goals rfl

/-- The bits of a link that does not send stay in a sample interval, and so in a period. -/
theorem period_high_of_not_send {l : Link} (hs : l.state ≠ .send) : l.period.high = l.high := by
  obtain ⟨hst, ho, _⟩ := period_kept l
  exact high_eq_of hst (fun h => (hs h).elim) ho

/-- Settles the link's part of one REFCLK period: its level is one period older, or is another since a bit of its own has
begun. -/
theorem period_look_aged {l : Link} (hl : l.high = l.mon.high) (a : Nat) (w : Word) :
    LinkAged l (l.period.look a w) := by
  obtain ⟨hst, ho, hmon⟩ := period_kept l
  obtain ⟨h0, h1, h2⟩ := period_cases l
  obtain ⟨x, hx, hxh, hxs, hxd⟩ : ∃ x : Monitor, l.period.look a w = { l.period with mon := x } ∧ x.high = l.period.high ∧
      (l.period.high = l.high → x = { l.mon with age := l.mon.age + 1 }) ∧
      (l.period.high ≠ l.high → x.age = 0 ∧ x.beganIn = l.state) := by
    obtain ⟨hsame, hsend⟩ := look_cases l.period a w
    by_cases hh : l.period.high = l.high
    · exact ⟨l.period.mon, hsame (by rw [hh, hl, hmon]), by rw [hh, hl, hmon], fun _ => hmon, fun h => (h hh).elim⟩
    · have hss : l.state = .send := by
        by_contra h
        exact hh (period_high_of_not_send h)
      exact ⟨_, hsend (by rw [hmon]; rwa [hl] at hh) (by rw [hst, hss]), rfl, fun h => (hh h).elim, fun _ => ⟨rfl, hst⟩⟩
  have hhigh : (l.period.look a w).high = l.period.high := by rw [hx]; rfl
  unfold LinkAged
  rw [hhigh, hx]
  refine ⟨hxh, hxs, hxd, fun hr => ?_, fun hr hleft => ?_, fun hr hleft => ⟨l.interval, interval_ends l, ?_⟩⟩
  · rw [h0 hr]
  · rw [h1 hr hleft]
  · rw [h2 hr hleft]

/-! ### One REFCLK period of the whole part -/

/-- The units have taken nothing but edges of PROBE. -/
structure ProbeSeen (s t : State) : Prop where
  news (u : UnitId) : ∃ news : List EdgeEvent,
    t.unit u = { s.unit u with inbox := (s.unit u).inbox ++ news } ∧ ∀ e ∈ news, e.signal = .probe

theorem ProbeSeen.of_units {s t : State} (h : t.units = s.units) : ProbeSeen s t :=
  ⟨fun u => ⟨[], by simp [State.unit, h], by simp⟩⟩

theorem ProbeSeen.trans {s t r : State} (h : ProbeSeen s t) (k : ProbeSeen t r) : ProbeSeen s r := by
  refine ⟨fun u => ?_⟩
  obtain ⟨a, ha, hpa⟩ := h.news u
  obtain ⟨b, hb, hpb⟩ := k.news u
  refine ⟨a ++ b, by rw [hb, ha, List.append_assoc], fun e he => ?_⟩
  rcases List.mem_append.mp he with h | h
  · exact hpa e h
  · exact hpb e h

theorem ProbeSeen.of_unitsSee {s t : State} {n : StationId} {high : Bool} (h : UnitsSee n .probe high s t) : ProbeSeen s t := by
  refine ⟨fun u => ?_⟩
  rw [h u]
  split
  · exact ⟨_, rfl, by simp⟩
  · exact ⟨[], by simp, by simp⟩

/-- A link's period is an edge of PROBE exactly when the level is another than the one its monitor has noted. -/
theorem linkTick_units (s : State) (n : StationId) :
    ProbeSeen s (linkTick s n) ∧
    ((linkAfter s n).mon.high = (s.st n).link.mon.high → (linkTick s n).units = s.units) := by
  obtain ⟨_, _, hsame, hsee⟩ := putLink_spec n (s.st n).link.period s
  have hmon : (s.st n).link.period.mon.high = (s.st n).link.mon.high := by rw [(period_kept _).2.2]
  refine ⟨?_, fun h => hsame ?_⟩
  · by_cases hh : (s.st n).link.period.high = (s.st n).link.period.mon.high
    · exact .of_units (hsame hh)
    · exact .of_unitsSee (hsee hh)
  · unfold linkAfter at h
    rw [look_mon_high] at h
    rw [hmon]
    exact h

theorem foldl_linkTick_seen (l : List StationId) (s : State) : ProbeSeen s (l.foldl linkTick s) := by
  induction l generalizing s with
  | nil => exact .of_units rfl
  | cons n l ih => exact (linkTick_units s n).1.trans (ih _)

theorem foldl_linkTick_silent (l : List StationId) (hl : l.Nodup) (s : State)
    (h : ∀ n ∈ l, (linkAfter s n).mon.high = (s.st n).link.mon.high) : (l.foldl linkTick s).units = s.units := by
  induction l generalizing s with
  | nil => rfl
  | cons n l ih =>
    obtain ⟨hn, hl⟩ := List.nodup_cons.mp hl
    rw [List.foldl_cons, ih hl, (linkTick_units s n).2 (h n (by simp))]
    intro m hm
    have hne : m ≠ n := fun e => hn (e ▸ hm)
    rw [linkAfter_linkTick hne, linkTick_st, if_neg hne]
    exact h m (by simp [hm])

/-- The periods of the links change the stations and the units alone. -/
theorem foldl_linkTick_frame (l : List StationId) (s : State) :
    l.foldl linkTick s = { s with stations := (l.foldl linkTick s).stations, units := (l.foldl linkTick s).units } := by
  ext1
  · exact foldl_keeps (fun s : State => s.time) (by simp [linkTick]) _ _
  · exact foldl_keeps (fun s : State => s.ctl) (by simp [linkTick]) _ _
  · exact foldl_keeps (fun s : State => s.sweep) (by simp [linkTick]) _ _
  · exact foldl_keeps (fun s : State => s.notice) (by simp [linkTick]) _ _
  · rfl
  · rfl
  · exact foldl_keeps (fun s : State => s.waitList) (by simp [linkTick]) _ _
  · exact foldl_keeps (fun s : State => s.cohorts) (by simp [linkTick]) _ _
  · exact foldl_keeps (fun s : State => s.lineA) (by simp [linkTick]) _ _
  · exact foldl_keeps (fun s : State => s.lineB) (by simp [linkTick]) _ _
  · exact foldl_keeps (fun s : State => s.engine) (by simp [linkTick]) _ _
  · exact foldl_keeps (fun s : State => s.sentLog) (by simp [linkTick]) _ _
  · exact foldl_keeps (fun s : State => s.choices) (by simp [linkTick]) _ _
  · exact foldl_keeps (fun s : State => s.pending) (by simp [linkTick]) _ _

theorem refclk_frame (s : State) :
    refclk s = { timersPeriod s with stations := (refclk s).stations, units := (refclk s).units } :=
  foldl_linkTick_frame _ _

theorem refclk_time (s : State) : (refclk s).time = s.time.period := by
  rw [refclk_frame]
  rfl

theorem timersPeriod_st (s : State) (n : StationId) : (timersPeriod s).st n = (s.st n).period := get_map ..

theorem timersPeriod_unit (s : State) (u : UnitId) :
    (timersPeriod s).unit u = { s.unit u with gate := tickDown (s.unit u).gate } := get_map ..

/-- A station after a REFCLK period: its filters have gone on, and its link has been looked at at the end of the period. -/
theorem refclk_st (s : State) (n : StationId) :
    (refclk s).st n = { (s.st n).period with link := linkAfter (timersPeriod s) n } := by
  unfold refclk
  rw [foldl_linkTick_st _ (List.nodup_finRange 24), if_pos (List.mem_finRange n), timersPeriod_st]

theorem linkAfter_timersPeriod (s : State) (n : StationId) :
    linkAfter (timersPeriod s) n = (s.st n).link.period.look ((timersPeriod s).ctx n).settings.attnMin (timersPeriod s).now := by
  unfold linkAfter
  rw [timersPeriod_st]
  rfl

/-- Settles O10: the timers' part of a period is the model's own; the links are looked at in turn, each once. -/
theorem clockAdvancesEveryTwentyFifthPeriod : Obligations.ClockAdvancesEveryTwentyFifthPeriod := by
  intro s ⟨hp, hm⟩
  have ht := refclk_time s
  refine ⟨?_, ?_, ?_, ?_, ?_, ?_, ?_, ?_, ?_, ?_, ?_⟩
  · unfold TimeBaseLegal
    rw [ht]
    exact timeBase_period_legal hp hm
  · rw [ht, timeBase_period hp hm]
  · rw [ht, timeBase_period hp hm]
  · rw [ht, timeBase_period hp hm]
  · rw [ht, timeBase_period hp hm]
  · rw [ht, timeBase_period hp hm]
  · rw [ht]
    exact refclk_frame s
  · intro n
    rw [refclk_st]
    rfl
  · intro n hn
    rw [refclk_st, linkAfter_timersPeriod]
    exact period_look_aged hn _ _
  · intro u
    obtain ⟨news, hu, hnews⟩ := (foldl_linkTick_seen (List.finRange 24) (timersPeriod s)).news u
    have hu : (refclk s).unit u = _ := hu
    rw [timersPeriod_unit] at hu
    rw [hu]
    exact ⟨rfl, news, rfl, hnews⟩
  · intro h u
    have hunits : (refclk s).units = (timersPeriod s).units := by
      refine foldl_linkTick_silent _ (List.nodup_finRange 24) _ fun n _ => ?_
      have hn := h n
      rw [refclk_st] at hn
      rw [timersPeriod_st]
      exact hn
    have hu : (refclk s).unit u = (timersPeriod s).unit u := by
      rw [State.unit, hunits]
      rfl
    rw [hu, timersPeriod_unit]

/-! ### The ms tick (R50, R105, R106) -/

theorem msTick_st (s : State) (n : StationId) : (msTick s).st n = (s.st n).tick := get_map ..

/-- A seat that has been evaluated counts the ticks on which its sample differs; before that it counts the ticks of one level
(R105, R106). -/
theorem sample_spec (p : Power) :
    p.sample = { p with run := p.sample.run, runDir := p.sample.runDir } ∧
    (p.evaluated = true →
      p.sample.runDir = p.runDir ∧ p.sample.run = if p.rawSeat = p.seated then 0 else min 20 (p.run + 1)) ∧
    (p.evaluated = false →
      p.sample.runDir = some p.rawSeat ∧
      p.sample.run = if p.runDir = some p.rawSeat then min 20 (p.run + 1) else 1) := by
  unfold Power.sample Config.seatTicks
  cases he : p.evaluated with
  | true => simp
  | false =>
    by_cases hd : p.runDir = some p.rawSeat
    · simp [hd]
    · simp [hd]

/-- Settles O11: every timer by itself. -/
theorem msTickAdvancesMillisecondTimers : Obligations.MsTickAdvancesMillisecondTimers := by
  intro s hdue
  refine ⟨msTick s, by simp [exec, execMsTick, hdue], rfl, fun n => ?_, fun n c => ?_, fun u => get_map .., fun n => ?_, fun n => ?_⟩
  · rw [State.ctx, msTick_st]
    rfl
  · rw [State.chan, msTick_st]
    exact get_map ..
  · rw [msTick_st]
    exact ⟨rfl, rfl, rfl⟩
  · rw [msTick_st]
    exact sample_spec _

end Sys2Proof.Proofs
end

section
/-! PROOFS. The resets and the registers (R184 to R187, R194, R195). -/

namespace Sys2Proof.Proofs

open Sys2Proof.Machine Sys2Proof.Laws

/-! ### The resets (R194, R195) -/

theorem coldReset_st (s : State) (n : StationId) : (coldReset s).st n = (s.st n).wiped (s.st n).power.cold := get_map ..

theorem softReset_st (s : State) (n : StationId) : (softReset s).st n = (s.st n).wiped (s.st n).power.soft := get_map ..

/-- Every channel of a wiped station is as after a cold reset. -/
theorem wiped_chans (x : Station) (p : Power) (c : ChannelId) : (x.wiped p).chans.get c = Channel.initial := by
  show (Vector.replicate 4 Channel.initial)[c.1] = _
  rw [Vector.getElem_replicate]

theorem coldReset_line (s : State) (l : Line) : (coldReset s).line l = SyncLine.initial (s.line l).others := by
  cases l <;> rfl

theorem softReset_line (s : State) (l : Line) : (softReset s).line l = SyncLine.initial (s.line l).others := by
  cases l <;> rfl

/-- Settles O14: block by block, as the reset is defined. -/
theorem coldResetRestoresEveryBlock : Obligations.ColdResetRestoresEveryBlock := by
  intro s cause
  refine ⟨coldReset s, rfl, rfl, rfl, rfl, rfl, rfl, rfl, rfl, rfl, rfl, rfl, rfl, rfl, coldReset_line s, fun n => ?_⟩
  rw [State.ctx, coldReset_st]
  refine ⟨rfl, rfl, fun c => ?_, rfl, rfl, rfl⟩
  rw [State.chan, coldReset_st]
  exact wiped_chans _ _ c

/-! ### CONTROL (R184, R186) -/

/-- The number that the three flags make. -/
def flagBits (run useA useB : Bool) : Nat := (if run then 1 else 0) + (if useA then 4 else 0) + (if useB then 8 else 0)

theorem flagBits_lt (run useA useB : Bool) : flagBits run useA useB < 65536 := by
  revert run useA useB
  decide

theorem flagBits_testBit (run useA useB : Bool) {i : Nat} (hi : i < 16) :
    (flagBits run useA useB).testBit i = if i = 0 then run else if i = 2 then useA else if i = 3 then useB else false := by
  have all : ∀ (r a b : Bool) (k : Fin 16),
      (flagBits r a b).testBit k.1 = if k.1 = 0 then r else if k.1 = 2 then a else if k.1 = 3 then b else false := by decide
  exact all run useA useB ⟨i, hi⟩

/-- CONTROL as read, bit by bit. -/
theorem controlWord_getLsbD (c : Control) (i : Nat) :
    (controlWord c).getLsbD i =
      if i = 0 then c.run else if i = 2 then c.useA else if i = 3 then c.useB
      else (decide (16 ≤ i) && c.period.getLsbD (i - 16)) := by
  have hw : controlWord c = BitVec.ofNat 32 (2 ^ 16 * c.period.toNat + flagBits c.run c.useA c.useB) := by
    unfold controlWord flagBits
    congr 1
    omega
  rw [hw, BitVec.getLsbD_ofNat, Nat.testBit_two_pow_mul_add _ (flagBits_lt _ _ _)]
  by_cases hi : i < 16
  · rw [if_pos hi, flagBits_testBit _ _ _ hi]
    have h32 : i < 32 := by omega
    have h16 : ¬16 ≤ i := by omega
    simp [h32, h16]
  · rw [if_neg hi, if_neg (by omega), if_neg (by omega), if_neg (by omega), decide_eq_true (show 16 ≤ i by omega),
      Bool.true_and, BitVec.testBit_toNat]
    by_cases h32 : i < 32
    · simp [h32]
    · rw [BitVec.getLsbD_of_ge _ _ (by omega), Bool.and_false]

/-- Settles O16: each register by its own bits. -/
theorem registerReadsShowListedBits : Obligations.RegisterReadsShowListedBits := by
  refine ⟨fun s => ⟨rfl, ?_, controlWord_getLsbD s.ctl, ?_, rfl, rfl, rfl, rfl, rfl, fun reg hreg => ?_⟩,
    rfl, rfl, rfl, rfl, rfl, rfl, rfl⟩
  · show (statusWord s.ctl).toNat = _
    have hs : s.ctl.state.code < 256 := by cases s.ctl.state <;> decide
    have hf : s.ctl.fault.code < 256 := by cases s.ctl.fault <;> decide
    rw [statusWord, BitVec.toNat_ofNat]
    omega
  · show (s.ctl.holdoff.setWidth 32).toNat = _
    rw [BitVec.toNat_setWidth]
    omega
  · obtain ⟨k, rfl⟩ := Nat.exists_eq_add_of_le' hreg
    rfl

/-- The word that a write to CONTROL stores: bit 1 reads as 0. -/
abbrev controlValue (w : Word) (be : BitVec 4) (c : Control) : Word := mergeBytes be w (controlWord c)

theorem controlValue_getLsbD (w : Word) (be : BitVec 4) (c : Control) {i : Nat} (hi : i < 32) :
    (controlValue w be c).getLsbD i = if be.getLsbD (i / 8) then w.getLsbD i else (controlWord c).getLsbD i := by
  rw [mergeBytes_getLsbD be w _ hi, bitWritten]

theorem controlValue_softReset (w : Word) (be : BitVec 4) (c : Control) :
    (controlValue w be c).getLsbD 1 = (be.getLsbD 0 && w.getLsbD 1) := by
  rw [controlValue_getLsbD w be c (by decide), controlWord_getLsbD]
  cases be.getLsbD 0 <;> simp

/-- The period field of the stored word: bytes 2 and 3, a disabled one carrying the present value (R184). -/
theorem controlValue_period (w : Word) (be : BitVec 4) (c : Control) :
    ((controlValue w be c) >>> 16).setWidth 16 = periodCarried w be c.period := by
  apply BitVec.eq_of_getLsbD_eq
  intro j hj
  have hlow : ∀ i, i < 16 → (controlWord c).getLsbD (16 + i) = c.period.getLsbD i := by
    intro i _
    rw [controlWord_getLsbD, if_neg (by omega), if_neg (by omega), if_neg (by omega)]
    simp
  rw [BitVec.getLsbD_setWidth, BitVec.getLsbD_ushiftRight, controlValue_getLsbD w be c (by omega), hlow j hj, periodCarried,
    BitVec.getLsbD_append]
  by_cases h8 : j < 8
  · have hq : (16 + j) / 8 = 2 := by omega
    rw [hq]
    cases be.getLsbD 2 <;> simp [hj, h8]
  · have hq : (16 + j) / 8 = 3 := by omega
    have hs : 24 + (j - 8) = 16 + j := by omega
    have ht : 8 + (j - 8) = j := by omega
    have hl : j - 8 < 8 := by omega
    rw [hq]
    cases be.getLsbD 3 <;> simp [hj, h8, hs, ht, hl]

/-- A CONTROL write whose byte 0 is enabled stores what its word says. -/
theorem stored_of_enabled {w : Word} {be : BitVec 4} (h : be.getLsbD 0 = true) (c : Control) :
    c.stored (controlValue w be c) = controlStored w be c := by
  have hbit : ∀ i, i < 8 → (controlValue w be c).getLsbD i = w.getLsbD i := by
    intro i hi
    have hq : i / 8 = 0 := by omega
    rw [controlValue_getLsbD w be c (by omega), hq, h, if_pos rfl]
  unfold Control.stored controlStored
  rw [controlValue_period, hbit 0 (by decide), hbit 2 (by decide), hbit 3 (by decide)]

/-- The present period, or the one a CONTROL write carries where it is not 0 (R7, R186). -/
def periodStored (w : Word) (be : BitVec 4) (c : Control) : Control :=
  { c with period := if periodCarried w be c.period = 0 then c.period else periodCarried w be c.period }

/-- A CONTROL write whose byte 0 carries the present flags stores its period alone. -/
theorem stored_of_flags {w : Word} {be : BitVec 4} {c : Control}
    (h : be.getLsbD 0 = true → w.getLsbD 0 = c.run ∧ w.getLsbD 2 = c.useA ∧ w.getLsbD 3 = c.useB) :
    c.stored (controlValue w be c) = periodStored w be c := by
  cases hbe : be.getLsbD 0 with
  | true =>
    obtain ⟨hrun, hA, hB⟩ := h hbe
    rw [stored_of_enabled hbe]
    unfold controlStored periodStored
    rw [hrun, hA, hB]
  | false =>
    have hbit : ∀ i, i < 8 → (controlValue w be c).getLsbD i = (controlWord c).getLsbD i := by
      intro i hi
      have hq : i / 8 = 0 := by omega
      rw [controlValue_getLsbD w be c (by omega), hq, hbe]
      rfl
    unfold Control.stored periodStored
    rw [controlValue_period, hbit 0 (by decide), hbit 2 (by decide), hbit 3 (by decide)]
    simp only [controlWord_getLsbD]
    rfl

/-- A CONTROL write without SOFT_RESET stores its fields, and the part reacts to them. -/
theorem controlWrite_react {w : Word} {be : BitVec 4} (h : (be.getLsbD 0 && w.getLsbD 1) = false) (s : State) :
    controlWrite w be s = controlReact { s with ctl := s.ctl.stored (controlValue w be s.ctl) } := by
  unfold controlWrite
  dsimp only
  rw [if_neg (by rw [controlValue_softReset, h]; decide)]

theorem controlWrite_enabled {w : Word} {be : BitVec 4} (h : be.getLsbD 0 = true) (h1 : w.getLsbD 1 = false) (s : State) :
    controlWrite w be s = controlReact { s with ctl := controlStored w be s.ctl } := by
  rw [controlWrite_react (by rw [h1, Bool.and_false]), stored_of_enabled h]

/-- Settles O15: a CONTROL write with SOFT_RESET 1 is the soft reset, block by block. -/
theorem softResetKeepsWhatTheTableNames : Obligations.SoftResetKeepsWhatTheTableNames := by
  intro s w be hbe hw
  have hr : exec (.softReset w be) s = .next (softReset s) := by
    show Host.Outcome.next (controlWrite w be s) = _
    unfold controlWrite
    dsimp only
    rw [if_pos (by rw [controlValue_softReset, hbe, hw]; rfl)]
  refine ⟨softReset s, hr, rfl, rfl, rfl, rfl, rfl, rfl, rfl, rfl, rfl, rfl, softReset_line s, fun n => ?_⟩
  rw [State.ctx, softReset_st]
  refine ⟨rfl, rfl, fun c => ?_, rfl, rfl, rfl, rfl, rfl, rfl, rfl, rfl, rfl, rfl, rfl, rfl, rfl, rfl, rfl⟩
  rw [State.chan, softReset_st]
  exact wiped_chans _ _ c

/-- Settles O25: a byte is stored where it is enabled. -/
theorem registerWritesStoreEnabledBytes : Obligations.RegisterWritesStoreEnabledBytes := by
  intro s w be
  refine ⟨⟨holdoffWrite w be s, rfl, rfl, fun i hi => ?_⟩, fun hc => ⟨⟨workLoWrite w be s, rfl, ?_⟩, ⟨workHiWrite w be s, rfl, ?_⟩⟩,
    fun hc => ⟨⟨workLoWrite w be s, rfl, if_neg hc⟩, ⟨workHiWrite w be s, rfl, if_neg hc⟩⟩⟩
  · show ((mergeBytes be w (s.ctl.holdoff.setWidth 32)).setWidth 16).getLsbD i = _
    rw [BitVec.getLsbD_setWidth, mergeBytes_getLsbD be w _ (by omega), bitWritten, BitVec.getLsbD_setWidth]
    have h32 : i < 32 := by omega
    simp [hi, h32]
  · rw [workLoWrite, if_pos hc]
    exact ⟨rfl, fun i hi => mergeBytes_getLsbD be w _ hi⟩
  · rw [workHiWrite, if_pos hc]
    exact ⟨rfl, fun i hi => mergeBytes_getLsbD be w _ hi⟩

end Sys2Proof.Proofs
end

section
/-! PROOFS. The send of the Notice Block writer, the writes to CONTROL and NOTICE_MASK, and the sweep (R7 to R9, R161, R179 to
R181, R186, R189, R193). -/

namespace Sys2Proof.Proofs

open Sys2Proof.Machine Sys2Proof.Laws

/-! ### The send (R180, R181) -/

theorem sendAllowed_iff (s : State) : sendAllowed s.ctl = true ↔ MayNotify s := by
  unfold sendAllowed MayNotify
  cases s.ctl.state <;> simp

/-- The condition under which an event begins a send (R180). -/
def SendDue (s : State) : Prop := s.notice.pending = true ∧ s.notice.writer = .idle ∧ MayNotify s

theorem noticeKick_of_not {s : State} (h : ¬SendDue s) : noticeKick s = s := by
  unfold noticeKick
  rw [if_neg]
  rwa [sendAllowed_iff]

/-- The notice state that a send begins with. -/
def noticeSending (s : State) (await : List StationId) : Notice :=
  { s.notice with count := s.notice.count + 1, pending := false, writer := .sending, offered := false, awaitHeld := await }

/-- A send that is due begins: its block's write is offered, and nothing but the notices and the engine has changed. -/
theorem noticeKick_of_due {s : State} (h : SendDue s) :
    (noticeKick s).notice = noticeSending s (noticeKick s).notice.awaitHeld ∧
    (noticeKick s).engine = engineOffered s (noticeWrite s (s.notice.count + 1)) ∧
    noticeKick s = { s with notice := (noticeKick s).notice, engine := (noticeKick s).engine } ∧
    AwaitsHeld (noticeKick s) := by
  have h' : s.notice.pending = true ∧ s.notice.writer = .idle ∧ sendAllowed s.ctl = true := by rwa [sendAllowed_iff]
  refine ⟨?_, ?_, by ext1 <;> simp, noticeKick_awaitsHeld h'⟩
  · unfold noticeKick noticeSending
    rw [if_pos h', offer_notice _ _ (by simp)]
  · unfold noticeKick
    rw [if_pos h', offer_engine]
    rfl

/-- The write of the Notice Block is taken wherever a send may begin. -/
theorem admits_notice {s : State} (h : MayNotify s) : admits s.ctl.state .noticeBlock = true := by
  rcases h with h | h | ⟨h, _⟩ <;> rw [h] <;> rfl

/-- A request that waits is kept by the begin of a send. -/
theorem requestWaits_noticeKick {q : Request} {s : State} (h : RequestWaits q s) : RequestWaits q (noticeKick s) := by
  unfold noticeKick
  split
  · exact requestWaits_offer h
  · exact h

theorem noticeKick_now (s : State) : (noticeKick s).now = s.now := by simp [State.now]

/-- A send that is due has begun as R181 says. -/
theorem noticeKick_begins {s : State} (h : SendDue s) : SendBegun s (noticeKick s) := by
  obtain ⟨hn, _, _, hawait⟩ := noticeKick_of_due h
  refine ⟨by rw [hn]; rfl, by rw [hn]; rfl, by rw [hn]; rfl, by rw [hn]; rfl, hawait, ?_⟩
  have hw : noticeWrite (noticeKick s) (noticeKick s).notice.count = noticeWrite s (s.notice.count + 1) := by
    unfold noticeWrite
    rw [noticeKick_ctl, noticeKick_attention, noticeKick_now, hn]
    rfl
  rw [hw]
  unfold noticeKick
  rw [if_pos (show s.notice.pending = true ∧ s.notice.writer = .idle ∧ sendAllowed s.ctl = true by rwa [sendAllowed_iff])]
  exact offer_waits (admits_notice h.2.2)

/-! ### A write to NOTICE_MASK (R179) -/

theorem writeMask_mask (w : Word) (be : BitVec 4) (s : State) {i : Nat} (hi : i < 32) :
    (writeMask w be s).notice.mask.getLsbD i =
      ((decide (i < 24) || decide (i = 31)) && bitWritten w be s.notice.mask i) := by
  have listed : ∀ k : Fin 32, attentionBits.getLsbD k.1 = (decide (k.1 < 24) || decide (k.1 = 31)) := by decide
  unfold writeMask
  rw [BitVec.getLsbD_and, mergeBytes_getLsbD be w _ hi, listed ⟨i, hi⟩, Bool.and_comm]

theorem writeMask_pending (w : Word) (be : BitVec 4) (s : State) :
    (writeMask w be s).notice.pending = true ↔
      s.notice.pending = true ∨ s.notice.attention &&& (writeMask w be s).notice.mask &&& ~~~s.notice.mask ≠ 0 := by
  simp [writeMask]

/-- Settles O24: the mask is stored, then the send begins if it is due. -/
theorem maskWriteAdmitsAndMayBeginSend : Obligations.MaskWriteAdmitsAndMayBeginSend := by
  intro s w be
  have hmask : (maskWrite w be s).notice.mask = (writeMask w be s).notice.mask := noticeKick_mask _
  have hatt : (maskWrite w be s).notice.attention = s.notice.attention := noticeKick_attention _
  refine ⟨maskWrite w be s, rfl, fun i hi => ?_, hatt, fun hs => ?_, fun hs => ?_⟩
  · rw [hmask]
    exact writeMask_mask w be s hi
  all_goals
    rw [hmask, ← writeMask_pending] at hs
    unfold maskWrite
  · rw [noticeKick_of_not (s := writeMask w be s) hs]
    exact ⟨rfl, writeMask_pending w be s⟩
  · obtain ⟨hn, he, hframe, hawait⟩ := noticeKick_of_due (s := writeMask w be s) hs
    exact ⟨hframe, by rw [hn]; rfl, by rw [hn]; rfl, by rw [hn]; rfl, by rw [hn]; rfl, hawait, he⟩

/-! ### The use flags and the lines (R157, R158, R161) -/

/-- The release condition reads the cohorts alone. -/
theorem releaseCondition_congr {s t : State} (h : t.cohorts = s.cohorts) (l : Line) :
    t.releaseCondition l = s.releaseCondition l := by
  unfold State.releaseCondition State.cohort
  rw [h]

theorem pin_of {x : SyncLine} (d : Drive) (h : x.drive = d) : x.pin = (x.others && !(d == .pull)) := by
  rw [SyncLine.pin, h]

/-- A line in PULL whose release condition does not hold is left as it is by a judging. -/
theorem judgeLine_pull {l : Line} {s : State} (hd : (s.line l).drive = .pull) (hr : s.releaseCondition l = false) :
    judgeLine l s = s := by
  unfold judgeLine
  rw [hd]
  simp [hr]

/-- What a line becomes when it takes its use flag (R161), by the condition before. -/
def UseTaken (l : Line) (s t : State) : Prop :=
  (s.ctl.useFlag l = true → (s.line l).drive = .off → s.releaseCondition l = false →
    (t.line l).drive = .pull ∧ (t.line l).pin = false) ∧
  (s.ctl.useFlag l = true → (s.line l).drive ≠ .off → t.line l = s.line l) ∧
  (s.ctl.useFlag l = false → (t.line l).drive = .off) ∧
  (s.ctl.useFlag l = false → (s.line l).drive ≠ .off → (t.line l).hold = none ∧ (t.line l).pin = (s.line l).others)

theorem applyUse_useTaken (l : Line) (s : State) : UseTaken l s (applyUse l s) := by
  unfold UseTaken applyUse
  cases hu : s.ctl.useFlag l with
  | true =>
    rw [if_pos rfl]
    refine ⟨fun _ hd hr => ?_, fun _ hd => by rw [if_neg hd], by simp, by simp⟩
    obtain ⟨hdrive, _⟩ := setDrive_spec l .pull s
    have hr' : (setDrive l .pull s).releaseCondition l = false := by
      rw [releaseCondition_congr (s := s) (by simp), hr]
    rw [if_pos hd, judgeLine_pull hdrive hr', pin_of _ hdrive]
    exact ⟨hdrive, by simp⟩
  | false =>
    rw [if_neg (by simp)]
    obtain ⟨hdrive, hothers, hhold, _⟩ := setDrive_spec l .off s
    refine ⟨by simp, by simp, fun _ => ?_, fun _ hd => ?_⟩
    · split
      · assumption
      · exact hdrive
    · rw [if_neg hd, pin_of _ hdrive, hothers, hhold]
      simp

/-- The judging of a line leaves the other line alone. -/
theorem judgeLine_line_ne {l h : Line} (hne : h ≠ l) (s : State) : (judgeLine l s).line h = s.line h := by
  unfold judgeLine
  (repeat' split)
  case isTrue => exact (setDrive_spec l _ s).2.2.2 h hne
  case isFalse => rfl
  case isTrue => rfl
  case isFalse => exact (setDrive_spec l _ s).2.2.2 h hne
  all_goals rfl

theorem applyUse_line_ne {l h : Line} (hne : h ≠ l) (s : State) : (applyUse l s).line h = s.line h := by
  unfold applyUse
  split
  · split
    · rw [judgeLine_line_ne hne, (setDrive_spec l _ s).2.2.2 h hne]
    · rfl
  · split
    · rfl
    · exact (setDrive_spec l _ s).2.2.2 h hne

/-- The use flags change the lines alone. -/
theorem applyUse_frame (l : Line) (s : State) :
    applyUse l s = { s with lineA := (applyUse l s).lineA, lineB := (applyUse l s).lineB } := by
  unfold applyUse
  (repeat' split) <;> ext1 <;> simp

theorem applyUses_frame (s : State) :
    applyUses s = { s with lineA := (applyUses s).lineA, lineB := (applyUses s).lineB } := by
  unfold applyUses
  rw [applyUse_frame .b, applyUse_frame .a s]

theorem applyUse_cohorts (l : Line) (s : State) : (applyUse l s).cohorts = s.cohorts := by rw [applyUse_frame]

/-- Each line takes its own use flag. -/
theorem applyUses_useTaken (l : Line) (s : State) : UseTaken l s (applyUses s) := by
  unfold applyUses
  cases l with
  | a =>
    have h := applyUse_useTaken .a s
    unfold UseTaken at h ⊢
    rwa [applyUse_line_ne (by decide)]
  | b =>
    have h := applyUse_useTaken .b (applyUse .a s)
    unfold UseTaken at h ⊢
    rwa [applyUse_ctl, releaseCondition_congr (applyUse_cohorts .a s), applyUse_line_ne (by decide)] at h

/-- A line that follows its use flag already stays as it is. -/
theorem applyUse_of_follows {l : Line} {s : State} (h : (s.line l).drive ≠ .off ↔ s.ctl.useFlag l = true) :
    applyUse l s = s := by
  unfold applyUse
  cases hu : s.ctl.useFlag l with
  | true => rw [if_pos rfl, if_neg (h.mpr hu)]
  | false =>
    rw [if_neg (by simp), if_pos]
    by_contra hd
    simp [h.mp hd] at hu

theorem applyUses_of_follows {s : State} (h : ∀ l, (s.line l).drive ≠ .off ↔ s.ctl.useFlag l = true) : applyUses s = s := by
  unfold applyUses
  rw [applyUse_of_follows (h .a), applyUse_of_follows (h .b)]

/-! ### The writes to CONTROL (R186) -/

/-- Every row of the table that writes CONTROL is the same write (log entry 22). -/
theorem exec_controlRow {w : Word} {be : BitVec 4} {i : Instr} (hi : i ∈ controlRows w be) (s : State) :
    exec i s = .next (controlWrite w be s) := by
  simp only [controlRows, List.mem_cons, List.not_mem_nil, or_false] at hi
  rcases hi with h | h | h | h | h | h <;> subst h <;> rfl

theorem controlReact_uses {s : State} (hs : s.ctl.state = .active) (hr : s.ctl.run = true) : controlReact s = applyUses s := by
  unfold controlReact
  rw [hs, hr]

theorem controlReact_quiesce {s : State} (hs : s.ctl.state = .active) (hr : s.ctl.run = false) :
    controlReact s = enterQuiesce .config s := by
  unfold controlReact
  rw [hs, hr]

theorem controlReact_start {s : State} (hs : s.ctl.state = .config) (hr : s.ctl.run = true) :
    controlReact s = startRequest s := by
  unfold controlReact
  rw [hs, hr]

theorem controlReact_leave {s : State} (hs : s.ctl.state = .faulted) (hr : s.ctl.run = false) :
    controlReact s = leaveFaulted s := by
  unfold controlReact
  rw [hs, hr]

/-- Settles O20: in ACTIVE with RUN 1 both lines take their flags. -/
theorem useFlagsDriveTheLines : Obligations.UseFlagsDriveTheLines := by
  intro s w be hs hbe hrun hsoft i hi
  have hi : i ∈ controlRows w be := by
    simp only [List.mem_cons, List.not_mem_nil, or_false] at hi
    rcases hi with h | h <;> simp [controlRows, h]
  have hreact : controlWrite w be s = applyUses { s with ctl := controlStored w be s.ctl } := by
    rw [controlWrite_enabled hbe hsoft]
    exact controlReact_uses hs hrun
  refine ⟨_, exec_controlRow hi s, ?_⟩
  rw [hreact]
  have hctl : (applyUses { s with ctl := controlStored w be s.ctl }).ctl = controlStored w be s.ctl := by rw [applyUses_frame]
  refine ⟨applyUses_frame _, fun l => ?_⟩
  obtain ⟨hpull, hstay, hoff, hleave⟩ := applyUses_useTaken l { s with ctl := controlStored w be s.ctl }
  have hline : ({ s with ctl := controlStored w be s.ctl } : State).line l = s.line l := line_of_eq rfl rfl l
  rw [hctl]
  rw [hline] at hpull hstay hleave
  exact ⟨fun hu hd hr => (hpull hu hd hr).1, hstay, hoff, hleave⟩

/-- Outside ACTIVE a CONTROL write that makes no start request and does not leave FAULTED is stored alone. -/
theorem controlReact_quiet {s : State}
    (h : (s.ctl.state = .config ∧ s.ctl.run = false) ∨ s.ctl.state = .quiescing ∨ (s.ctl.state = .faulted ∧ s.ctl.run = true)) :
    controlReact s = s := by
  unfold controlReact
  rcases h with ⟨h, hr⟩ | h | ⟨h, hr⟩
  · rw [h, hr]
  · rw [h]
  · rw [h, hr]

/-- Settles O21: the stored word differs from the present one in its period alone, or the part state does not react. -/
theorem sweepPeriodStoredUnlessZero : Obligations.SweepPeriodStoredUnlessZero := by
  intro s w be
  refine ⟨fun hs hrun hfollow hflags => ⟨controlWrite w be s, rfl, ?_⟩,
    fun i hi => ⟨fun hbe hsoft hq => ⟨_, exec_controlRow hi s, ?_⟩, fun hbe hq => ⟨_, exec_controlRow hi s, ?_⟩⟩⟩
  · have hsoft : (be.getLsbD 0 && w.getLsbD 1) = false := by
      cases hbe : be.getLsbD 0 with
      | true => rw [(hflags hbe).2.1]; rfl
      | false => rfl
    rw [controlWrite_react hsoft, stored_of_flags fun hbe => by
      obtain ⟨h0, _, h2, h3⟩ := hflags hbe
      exact ⟨by rw [h0, hrun], h2, h3⟩]
    rw [controlReact_uses (s := { s with ctl := periodStored w be s.ctl }) hs hrun]
    refine applyUses_of_follows fun l => ?_
    have hl := hfollow l
    simp only [hs, true_and] at hl
    have hline : ({ s with ctl := periodStored w be s.ctl } : State).line l = s.line l := line_of_eq rfl rfl l
    rw [hline]
    exact hl
  · rw [controlWrite_enabled hbe hsoft]
    exact controlReact_quiet (by simpa [controlStored] using hq)
  · rw [controlWrite_react (by rw [hbe]; rfl), stored_of_flags fun h => by rw [hbe] at h; cases h]
    exact controlReact_quiet (s := { s with ctl := periodStored w be s.ctl }) hq

/-- Settles O19: the part leaves FAULTED at once or when the writer's requests have left the engine. -/
theorem faultedLeavesForConfig : Obligations.FaultedLeavesForConfig := by
  refine ⟨fun s w be hs hbe hrun hsoft => ⟨controlWrite w be s, rfl, ?_⟩, fun s hs hl hw => ⟨enterConfig s, ?_, rfl⟩⟩
  · rw [controlWrite_enabled hbe hsoft, controlReact_leave (s := { s with ctl := controlStored w be s.ctl }) hs hrun]
    unfold leaveFaulted
    have hw : writerClear { s with ctl := controlStored w be s.ctl } = writerClear s := rfl
    rw [hw]
    split <;> rfl
  · show Host.Outcome.next (if faultedLeaveDue s then enterConfig s else s) = _
    rw [if_pos]
    simp [faultedLeaveDue, hs, hl, hw]

/-! ### The entry into ACTIVE (R189) -/

/-- The directory read (R9). -/
def directoryRead (base : Addr) : Request := { kind := .sweepRead, addr := base, length := 1536, bytes := [] }

/-- A sweep that begins restarts the timer and offers its read, and nothing else (R7, R9). -/
theorem beginSweep_eq (s : State) :
    beginSweep s = { s with
      sweep := { timer := some (250 * s.ctl.period.toNat), pending := s.sweep.pending, inFlight := true },
      engine := engineOffered s (directoryRead s.ctl.base) } := by
  have hmicros : micros (10 * s.ctl.period.toNat) = 250 * s.ctl.period.toNat := by
    unfold micros Config.periodsPerMicro
    omega
  unfold beginSweep
  rw [hmicros]
  ext1
  case h4 => exact offer_notice _ _ (by simp)
  case h11 => exact offer_engine _ _
  all_goals simp

/-- A request of another kind that waits is kept by the queuing of a part-half write. -/
theorem requestWaits_queuePartHalf {q : Request} {n : StationId} (hk : q.kind ≠ .partHalf n) {s : State}
    (h : RequestWaits q s) : RequestWaits q (queuePartHalf n s) := by
  have same : ∀ bytes, replaceBytes n bytes q = q := fun bytes => if_neg hk
  unfold queuePartHalf
  dsimp only
  split
  case isFalse => exact h
  case isTrue =>
    split
    · exact h.imp id fun hr => List.mem_map.mpr ⟨q, hr, same _⟩
    · split
      · split
        · exact h
        · exact h.imp (fun hq => List.mem_map.mpr ⟨_, hq, by rw [same]⟩) id
      · exact requestWaits_offer h

/-- What stands queued, waits or is held for a station is kept when another station queues its part-half write. -/
theorem partHalfQueued_queuePartHalf {n m : StationId} {P : List Byte → Prop} (hne : m ≠ n) {s : State}
    (h : PartHalfQueued n P s) : PartHalfQueued n P (queuePartHalf m s) := by
  have same : ∀ (bytes : List Byte) (q : Request), q.kind = .partHalf n → replaceBytes m bytes q = q := by
    intro bytes q hq
    refine if_neg ?_
    rw [hq]
    exact fun e => hne (ReqKind.partHalf.inj e).symm
  unfold queuePartHalf
  dsimp only
  split
  case isFalse => exact h
  case isTrue =>
    split
    · rcases h with h | h | ⟨r, hr, hk, hp⟩
      · exact .inl h
      · exact .inr (.inl h)
      · exact .inr (.inr ⟨r, List.mem_map.mpr ⟨r, hr, same _ r hk⟩, hk, hp⟩)
    · split
      · split
        · rcases h with ⟨b, hb, hp⟩ | h
          · refine .inl ⟨b, ?_, hp⟩
            rw [get_set s.engine.held m n, if_neg (Ne.symm hne)]
            exact hb
          · exact .inr h
        · rcases h with h | ⟨e, he, hk, hp⟩ | h
          · exact .inl h
          · exact .inr (.inl ⟨e, List.mem_map.mpr ⟨e, he, by rw [same _ e.req hk]⟩, hk, hp⟩)
          · exact .inr (.inr h)
      · exact partHalfQueued_offer _ h

/-- A part-half write queued with the bytes of the moment. -/
def PartHalfNow (n : StationId) (s : State) : Prop := PartHalfQueued n (fun bytes => bytes = partHalfBytes (s.st n) s.now) s

theorem partHalfNow_queuePartHalf {n m : StationId} {s : State} (hs : TakesWrites s) (h : m = n ∨ PartHalfNow n s) :
    PartHalfNow n (queuePartHalf m s) := by
  by_cases hne : m = n
  · subst hne
    unfold PartHalfNow
    rw [queuePartHalf_st, queuePartHalf_now]
    exact queuePartHalf_reports m s (by simpa [TakesWrites] using hs)
  · unfold PartHalfNow
    rw [queuePartHalf_st, queuePartHalf_now]
    exact partHalfQueued_queuePartHalf hne (h.resolve_left hne)

/-- Every station of a list has queued its part-half write once the list has been worked off. -/
theorem foldl_queuePartHalf_now (l : List StationId) {n : StationId} {s : State} (hs : TakesWrites s)
    (h : n ∈ l ∨ PartHalfNow n s) : PartHalfNow n (l.foldl (fun u m => queuePartHalf m u) s) := by
  induction l generalizing s with
  | nil => exact h.resolve_left List.not_mem_nil
  | cons m l ih =>
    have hs' : TakesWrites (queuePartHalf m s) := by simpa [TakesWrites] using hs
    refine ih hs' ?_
    rcases h with h | h
    · rcases List.mem_cons.mp h with rfl | h
      · exact .inr (partHalfNow_queuePartHalf hs (.inl rfl))
      · exact .inl h
    · exact .inr (partHalfNow_queuePartHalf hs (.inr h))

/-- The queue's first entry stays first when requests are offered behind it. -/
theorem offer_queue_head {e : Entry} {s : State} (h : s.engine.queue.head? = some e) (r : Request) :
    (offer r s).engine.queue.head? = some e := by
  unfold offer take
  split
  · split
    · simp [List.head?_append, h]
    · exact h
  · exact h

theorem queuePartHalf_queue_head {e : Entry} {s : State} (h : s.engine.queue.head? = some e) {n : StationId}
    (hk : e.req.kind ≠ .partHalf n) : (queuePartHalf n s).engine.queue.head? = some e := by
  unfold queuePartHalf
  dsimp only
  split
  case isFalse => exact h
  case isTrue =>
    split
    · exact h
    · split
      · split
        · exact h
        · simp [h, replaceBytes, hk]
      · exact offer_queue_head h _

theorem noticeKick_queue_head {e : Entry} {s : State} (h : s.engine.queue.head? = some e) :
    (noticeKick s).engine.queue.head? = some e := by
  unfold noticeKick
  split
  · apply offer_queue_head
    exact h
  · exact h

/-- Part-half writes change the engine and the awaited updates alone. -/
theorem foldl_queuePartHalf_frame (l : List StationId) (s : State) :
    l.foldl (fun u n => queuePartHalf n u) s = { s with
      engine := (l.foldl (fun u n => queuePartHalf n u) s).engine,
      notice := { s.notice with awaitHeld := (l.foldl (fun u n => queuePartHalf n u) s).notice.awaitHeld } } := by
  induction l generalizing s with
  | nil => rfl
  | cons n l ih =>
    have hone : queuePartHalf n s = { s with
        engine := (queuePartHalf n s).engine,
        notice := { s.notice with awaitHeld := (queuePartHalf n s).notice.awaitHeld } } := by
      ext1
      case h4 => exact queuePartHalf_notice n s
      all_goals simp
    rw [List.foldl_cons, ih, hone]

/-- The part has just entered ACTIVE: its first sweep has begun and every station has queued its part-half write. -/
@[irreducible] def activeEntered (c : Control) (s : State) : State :=
  (List.finRange 24).foldl (fun u n => queuePartHalf n u) (beginSweep { s with ctl := c })

/-- The part-half writes of the entry change the engine and the awaited updates alone. -/
theorem activeEntered_frame (c : Control) (s : State) :
    activeEntered c s = { s with
      ctl := c, sweep := { timer := some (250 * c.period.toNat), pending := s.sweep.pending, inFlight := true },
      engine := (activeEntered c s).engine,
      notice := { s.notice with awaitHeld := (activeEntered c s).notice.awaitHeld } } := by
  have h := foldl_queuePartHalf_frame (List.finRange 24) (beginSweep { s with ctl := c })
  unfold activeEntered
  rw [h, beginSweep_eq]

theorem activeEntered_reports {c : Control} (hc : c.state = .active) (s : State) (n : StationId) :
    PartHalfNow n (activeEntered c s) := by
  unfold activeEntered
  exact foldl_queuePartHalf_now _ (.inl (by rw [beginSweep_eq]; exact hc)) (.inl (List.mem_finRange n))

/-- The directory read stands first in a queue that was empty. -/
theorem activeEntered_head {c : Control} (hc : c.state = .active) {s : State} (hq : s.engine.queue = [])
    (hr : s.engine.room = []) :
    (activeEntered c s).engine.queue.head? = some { req := directoryRead c.base, sent := none } := by
  have hbegun : (beginSweep { s with ctl := c }).engine.queue.head? = some { req := directoryRead c.base, sent := none } := by
    rw [beginSweep_eq]
    simp [engineOffered, hc, hq, hr, admits]
  unfold activeEntered
  exact foldl_keeps_prop (P := fun u => u.engine.queue.head? = some { req := directoryRead c.base, sent := none })
    (f := fun u n => queuePartHalf n u) (fun n h => queuePartHalf_queue_head h (by simp [directoryRead])) _ hbegun

/-- CONTROL at the entry into ACTIVE. -/
def activeControl (c : Control) : Control := { c with state := .active, fault := .none, base := c.workBase }

/-- The entry into ACTIVE: the lines take their flags, and a send that is due begins, last. -/
theorem enterActive_eq (s : State) : enterActive s = noticeKick (applyUses (activeEntered (activeControl s.ctl) s)) := by
  unfold enterActive activeEntered
  rfl

/-- What the entry changes beside the notices and the engine. -/
theorem enterActive_frame (s : State) :
    enterActive s = { s with
      ctl := activeControl s.ctl,
      sweep := { timer := some (250 * s.ctl.period.toNat), pending := s.sweep.pending, inFlight := true },
      engine := (enterActive s).engine, notice := (enterActive s).notice,
      lineA := (enterActive s).lineA, lineB := (enterActive s).lineB } := by
  rw [enterActive_eq]
  ext1 <;> simp only [noticeKick_time, noticeKick_ctl, noticeKick_sweep, noticeKick_stations, noticeKick_units,
    noticeKick_waitList, noticeKick_cohorts, noticeKick_lineA, noticeKick_lineB, noticeKick_sentLog, noticeKick_choices,
    noticeKick_pending]
  all_goals
    rw [applyUses_frame, activeEntered_frame] <;> rfl

theorem enterActive_ctl (s : State) : (enterActive s).ctl = activeControl s.ctl := by rw [enterActive_frame]

/-- Before its send the entry has left the notices but for the awaited updates. -/
theorem uses_activeEntered_notice (c : Control) (s : State) :
    (applyUses (activeEntered c s)).notice = { s.notice with awaitHeld := (applyUses (activeEntered c s)).notice.awaitHeld } := by
  rw [applyUses_frame, activeEntered_frame]

theorem PartHalfQueued.imp {n : StationId} {P Q : List Byte → Prop} (h : ∀ bytes, P bytes → Q bytes) {s t : State}
    (he : t.engine = s.engine) (hq : PartHalfQueued n P s) : PartHalfQueued n Q t := by
  unfold PartHalfQueued
  rw [he]
  exact hq.imp (fun ⟨b, hb, hp⟩ => ⟨b, hb, h b hp⟩)
    (.imp (fun ⟨e, hm, hk, hp⟩ => ⟨e, hm, hk, h _ hp⟩) (fun ⟨r, hm, hk, hp⟩ => ⟨r, hm, hk, h _ hp⟩))

theorem partHalfQueued_noticeKick {n : StationId} {P : List Byte → Prop} {s : State} (h : PartHalfQueued n P s) :
    PartHalfQueued n P (noticeKick s) := by
  unfold noticeKick
  split
  · apply partHalfQueued_offer
    exact h
  · exact h

/-- The part half of the moment shows the station as it stands. -/
theorem PartHalfNow.shows {n : StationId} {s t : State} (h : PartHalfNow n s) (hst : t.st n = s.st n) (hnow : t.now = s.now) :
    PartHalfQueued n (ShowsPartHalf n t) s := by
  refine PartHalfQueued.imp (fun bytes hb => ⟨(t.ctx n).lastRead, ?_⟩) rfl h
  rw [hb, hnow, hst, State.ctx, hst]

/-- Every station has queued its part-half write at the entry. -/
theorem enterActive_reports (s : State) (n : StationId) : PartHalfReports n (ShowsPartHalf n (enterActive s)) (enterActive s) := by
  intro _
  have hstations : (enterActive s).stations = (activeEntered (activeControl s.ctl) s).stations := by
    rw [enterActive_frame, activeEntered_frame]
  have htime : (enterActive s).time = (activeEntered (activeControl s.ctl) s).time := by
    rw [enterActive_frame, activeEntered_frame]
  have h := (activeEntered_reports (c := activeControl s.ctl) rfl s n).shows (st_congr hstations n)
    (show (enterActive s).now = _ by rw [State.now, htime]; rfl)
  generalize ShowsPartHalf n (enterActive s) = P at h ⊢
  rw [enterActive_eq]
  exact partHalfQueued_noticeKick (PartHalfQueued.imp (fun _ hb => hb) (by rw [applyUses_frame]) h)

/-- The lines at the entry (R157, R158, R161). -/
theorem enterActive_useTaken (s : State) (l : Line) :
    UseTaken l { s with ctl := activeControl s.ctl } (enterActive s) := by
  have h := applyUses_useTaken l (activeEntered (activeControl s.ctl) s)
  rw [enterActive_eq]
  unfold UseTaken at h ⊢
  have hline : (noticeKick (applyUses (activeEntered (activeControl s.ctl) s))).line l =
      (applyUses (activeEntered (activeControl s.ctl) s)).line l := line_of_eq (by simp) (by simp) l
  have hframe := activeEntered_frame (activeControl s.ctl) s
  have hctl : (activeEntered (activeControl s.ctl) s).ctl = activeControl s.ctl := by rw [hframe]
  have hold : (activeEntered (activeControl s.ctl) s).line l = s.line l := line_of_eq (by rw [hframe]) (by rw [hframe]) l
  have hrel : (activeEntered (activeControl s.ctl) s).releaseCondition l = s.releaseCondition l :=
    releaseCondition_congr (by rw [hframe]) l
  rw [hctl, hold, hrel] at h
  rw [hline]
  exact h

/-- Settles O17: a base that is not a multiple of 4096 is refused; otherwise the entry into ACTIVE. -/
theorem startRequestEntersActiveOrRefuses : Obligations.StartRequestEntersActiveOrRefuses := by
  intro s w be hs hbe hrun hsoft
  refine ⟨controlWrite w be s, rfl, ?_⟩
  rw [controlWrite_enabled hbe hsoft, controlReact_start (s := { s with ctl := controlStored w be s.ctl }) hs hrun]
  generalize hu : ({ s with ctl := controlStored w be s.ctl } : State) = u
  have hbase : u.ctl.workBase = s.ctl.workHi ++ s.ctl.workLo := by rw [← hu]; rfl
  unfold startRequest
  rw [hbase]
  refine ⟨fun hb => ?_, fun hb => ?_⟩
  · rw [if_neg hb, ← hu]
  · rw [if_pos hb]
    have hf := enterActive_frame u
    have hctl : activeControl u.ctl = { controlStored w be s.ctl with
        state := .active, fault := .none, base := s.ctl.workHi ++ s.ctl.workLo } := by
      rw [← hu]
      rfl
    refine ⟨by rw [enterActive_ctl, hctl], by rw [hf, ← hu], by rw [hf, ← hu], by rw [hf, ← hu], by rw [hf, ← hu],
      by rw [hf, ← hu], by rw [hf, ← hu], by rw [hf, ← hu], by rw [hf, ← hu], enterActive_reports u, fun hq hr => ?_,
      fun hoff => fun l => ⟨?_, fun huse hrel => ?_⟩, fun hp hw => ?_, fun hno => ?_⟩
    · have hhead := activeEntered_head (c := activeControl u.ctl) (s := u) rfl (by rw [← hu]; exact hq) (by rw [← hu]; exact hr)
      have huses : (applyUses (activeEntered (activeControl u.ctl) u)).engine.queue.head? =
          some { req := directoryRead (activeControl u.ctl).base, sent := none } := by
        rw [applyUses_frame]
        exact hhead
      rw [enterActive_eq, noticeKick_queue_head huses, hctl]
      rfl
    · have hl := enterActive_linesFollowUse u l
      rw [enterActive_ctl, hctl] at hl
      generalize ((enterActive u).line l).drive = d at hl ⊢
      have hflag : Control.useFlag { controlStored w be s.ctl with
        state := .active, fault := .none, base := s.ctl.workHi ++ s.ctl.workLo } l = (controlStored w be s.ctl).useFlag l := by
        cases l <;> rfl
      rw [hflag] at hl
      cases hc : (controlStored w be s.ctl).useFlag l <;> simp_all
    · have hflag : Control.useFlag (activeControl u.ctl) l = true := by
        rw [hctl, ← huse]
        cases l <;> rfl
      have hold : ({ u with ctl := activeControl u.ctl } : State).line l = s.line l :=
        line_of_eq (by rw [← hu]) (by rw [← hu]) l
      exact (enterActive_useTaken u l).1 hflag (by rw [hold]; exact hoff l)
        (by rw [← hrel]; exact releaseCondition_congr (by rw [← hu]) l)
    all_goals
      have hnotice := uses_activeEntered_notice (activeControl u.ctl) u
      have hn : u.notice = s.notice := by rw [← hu]
      rw [hn] at hnotice
      rw [enterActive_eq]
      generalize hv : applyUses (activeEntered (activeControl u.ctl) u) = v at hnotice ⊢
      have hvc : v.ctl.state = .active := by
        rw [← hv, applyUses_frame, activeEntered_frame]
        rfl
    · have hdue : SendDue v := ⟨by rw [hnotice]; exact hp, by rw [hnotice]; exact hw, .inl hvc⟩
      obtain ⟨hk, _, _, hawait⟩ := noticeKick_of_due hdue
      obtain ⟨_, _, _, _, _, hwait⟩ := noticeKick_begins hdue
      refine ⟨?_, hawait, hwait⟩
      rw [hk]
      unfold noticeSending
      rw [hnotice]
    · have hnot : ¬SendDue v := by
        rintro ⟨hp, hw, _⟩
        rw [hnotice] at hp hw
        rcases hno with h | h
        · rw [h] at hp
          cases hp
        · exact h hw
      rw [noticeKick_of_not hnot]
      exact hnotice

/-! ### The sweep (R7 to R9) -/

/-- A read that has completed hands its bytes over, its entry freed first (R170, R172). -/
theorem readCompletion_done {s : State} {tag : Nat} {e : Entry} {r : SentRead} (he : s.sentRead tag = some e)
    (hr : e.sent = some r) {data : List Byte} (hlen : r.got.length + data.length = e.req.length) :
    exec (.readCompletion tag .success r.got.length data) s = .next (readDone e.req.kind (r.got ++ data) (freeRead tag s)) := by
  show execReadCompletion _ _ _ _ _ = _
  unfold execReadCompletion
  rw [he]
  unfold completeRead completionFaults
  simp [hr, hlen]

theorem observeAll_sweep (data : List Byte) (s : State) : (observeAll data s).sweep = s.sweep :=
  sweep_of_fixed (observeAll_fixed data s)

theorem observeAll_ctl (data : List Byte) (s : State) : (observeAll data s).ctl = s.ctl :=
  ctl_of_fixed (observeAll_fixed data s)

theorem freeRead_frame (tag : Nat) (s : State) :
    (freeRead tag s).ctl = s.ctl ∧ (freeRead tag s).sweep = s.sweep ∧ (freeRead tag s).stations = s.stations := by
  simp [freeRead]

/-- A write to SWEEP, or the timer's end, while a sweep is in flight or not (R7, R8). -/
theorem sweepWrite_eq {s : State} (h : s.ctl.state = .active) :
    sweepWrite s = if s.sweep.inFlight then { s with sweep := { s.sweep with pending := true } } else beginSweep s := by
  unfold sweepWrite
  rw [if_pos (by simp [State.active, h])]

/-- The end of a sweep in ACTIVE: the next begins if one is pending. -/
theorem endSweep_active {s : State} (h : s.ctl.state = .active) :
    (s.sweep.pending = false → endSweep s = { s with sweep := { s.sweep with inFlight := false } }) ∧
    (s.sweep.pending = true →
      (endSweep s).sweep = { timer := some (250 * s.ctl.period.toNat), pending := false, inFlight := true } ∧
      RequestWaits (directoryRead s.ctl.base) (endSweep s)) := by
  unfold endSweep
  dsimp only
  refine ⟨fun hp => by rw [if_neg (by simp [hp])], fun hp => ?_⟩
  rw [if_pos ⟨by simp [State.active, h], hp⟩]
  refine ⟨by rw [beginSweep_eq], ?_⟩
  unfold beginSweep
  apply offer_waits
  rw [h]
  rfl

/-- Settles O22: a sweep begins when none is in flight. -/
theorem sweepBeginsOrIsPending : Obligations.SweepBeginsOrIsPending := by
  intro s
  refine ⟨fun w be => ⟨fun h => ⟨sweepWrite s, rfl, ?_⟩, fun h hf => ⟨sweepWrite s, rfl, ?_⟩, fun h hf => ⟨sweepWrite s, rfl, ?_⟩⟩,
    fun h ht => ⟨fun hf => ⟨sweepTimerExpiry s, ?_, ?_⟩, fun hf => ⟨sweepTimerExpiry s, ?_, ?_⟩⟩, ?_, ?_⟩
  · unfold sweepWrite
    rw [if_neg (by simpa [State.active] using h)]
  · rw [sweepWrite_eq h, if_pos hf]
  · rw [sweepWrite_eq h, if_neg (by simp [hf]), beginSweep_eq]
    rfl
  · exact congrArg Host.Outcome.next (if_pos (by simp [sweepTimerDue, State.active, h, ht]))
  · unfold sweepTimerExpiry
    rw [if_pos hf]
    rw [← hf]
  · exact congrArg Host.Outcome.next (if_pos (by simp [sweepTimerDue, State.active, h, ht]))
  · unfold sweepTimerExpiry
    rw [if_neg (by simp [hf]), beginSweep_eq]
    rfl
  · rintro tag first last data ⟨hs, hlen, e, r, he, hr, hk, hreq, rfl, rfl⟩
    refine ⟨_, readCompletion_done he hr (by rw [hreq, ← hlen, List.length_append]), ?_⟩
    obtain ⟨hctl, hsweep, _⟩ := freeRead_frame tag s
    rw [hk]
    unfold readDone
    dsimp only
    rw [if_pos (by simp [State.active, hctl, hs])]
    generalize hu : observeAll (r.got ++ last) (freeRead tag s) = u
    have huc : u.ctl = s.ctl := by rw [← hu, observeAll_ctl, hctl]
    have hus : u.sweep = s.sweep := by rw [← hu, observeAll_sweep, hsweep]
    obtain ⟨hnone, hnext⟩ := endSweep_active (s := u) (by rw [huc]; exact hs)
    rw [huc, hus] at hnext
    rw [hus] at hnone
    refine ⟨fun hp => ?_, fun hp => ?_⟩
    · rw [noticeKick_sweep, hnone hp]
    · rw [noticeKick_sweep]
      exact ⟨(hnext hp).1, requestWaits_noticeKick (hnext hp).2⟩
  · intro tag e r data hs he hr hk hlen
    refine ⟨_, readCompletion_done he hr hlen, ?_⟩
    obtain ⟨hctl, hsweep, hst⟩ := freeRead_frame tag s
    have hact : (freeRead tag s).active = false := by simp [State.active, hctl, hs]
    rw [hk]
    unfold readDone endSweep
    dsimp only
    rw [if_neg (by simp [hact]), if_neg (by simp [hact])]
    rw [noticeKick_sweep, noticeKick_stations, noticeKick_ctl]
    exact ⟨by rw [hsweep], hst, hctl⟩

end Sys2Proof.Proofs
end

section
/-! PROOFS. The completion of a read and the dispatch of a record (R22, R24, R25, R170, R171). -/

namespace Sys2Proof.Proofs

open Sys2Proof.Machine Sys2Proof.Laws

/-! ### The request half of a record (section 1.6, R24) -/

/-- The kind byte of a step. -/
def StepOp.kindByte : StepOp → Nat
  | .pause _ => 0x01 | .note _ => 0x02 | .setup _ => 0x03 | .query _ => 0x10 | .awaitAttention _ => 0x11
  | .press _ _ _ => 0x20 | .tap _ _ _ _ => 0x21 | .hold _ => 0x22 | .lift _ => 0x23 | .supply _ => 0x30
  | .arm _ _ => 0x40 | .collect _ => 0x41 | .barrier _ _ _ _ => 0x50 | .invalid => 0

theorem recordGives_kind {bs : List Byte} {hasCohort : Bool} {op : StepOp} (h : RecordGives bs hasCohort op) :
    natAt bs 0 = StepOp.kindByte op := by
  cases op
  case invalid => exact h.elim
  all_goals exact h.1

/-- A record is read as a step of the kind its first byte names. -/
theorem stepOf_kind {bs : List Byte} {hasCohort : Bool} {op : StepOp} (h : stepOf bs hasCohort = some op) :
    natAt bs 0 = StepOp.kindByte op := by
  unfold stepOf at h
  split at h
  case h_14 => cases h
  all_goals
    rename_i hk
    rw [hk]
    simp only [Option.ite_none_right_eq_some, Option.some.injEq, Option.map_eq_some_iff, Option.bind_eq_some_iff] at h
  case h_1 | h_10 =>
    obtain ⟨_, rfl⟩ := h
    rfl
  case h_2 | h_5 =>
    subst h
    rfl
  case h_6 | h_7 =>
    obtain ⟨_, _, _, rfl⟩ := h
    rfl
  case h_13 =>
    obtain ⟨_, _, _, _, _, rfl⟩ := h
    rfl
  all_goals
    obtain ⟨_, _, rfl⟩ := h
    rfl

theorem queryOf_iff (bs : List Byte) (q : QuerySpec) :
    queryOf bs = some q ↔
      q.expectAnswer = (byteAt bs 6).getLsbD 0 ∧ q.rawCheck = (byteAt bs 6).getLsbD 1 ∧
      q.expectStatus = (byteAt bs 6).getLsbD 2 ∧ q.tag = natAt bs 7 ∧ q.tag ≤ 63 ∧ natAt bs 8 ≤ 16 ∧
      q.payload = ((List.range (natAt bs 8)).map fun i => byteAt bs (12 + i)) ∧ q.check = byteAt bs 9 ∧
      q.status = byteAt bs 10 := by
  obtain ⟨e, r, x, tag, p, c, st⟩ := q
  unfold queryOf
  simp only [Option.ite_none_right_eq_some, Option.some.injEq, QuerySpec.mk.injEq]
  constructor
  · rintro ⟨⟨h7, h8⟩, rfl, rfl, rfl, rfl, rfl, rfl, rfl⟩
    exact ⟨rfl, rfl, rfl, rfl, h7, h8, rfl, rfl, rfl⟩
  · rintro ⟨rfl, rfl, rfl, rfl, h7, h8, rfl, rfl, rfl⟩
    exact ⟨⟨h7, h8⟩, rfl, rfl, rfl, rfl, rfl, rfl, rfl⟩

/-- A record is read as a step exactly where it gives that step. -/
theorem stepOf_iff {bs : List Byte} {hasCohort : Bool} {op : StepOp} (hop : op ≠ .invalid) :
    stepOf bs hasCohort = some op ↔ RecordGives bs hasCohort op := by
  by_cases hk : natAt bs 0 = StepOp.kindByte op
  case neg => exact iff_of_false (fun h => hk (stepOf_kind h)) (fun h => hk (recordGives_kind h))
  case pos =>
    unfold stepOf RecordGives
    cases op
    case invalid => exact (hop rfl).elim
    all_goals
      simp only [StepOp.kindByte] at hk
      rw [hk]
      simp only [true_and, Option.ite_none_right_eq_some, Option.some.injEq, Option.map_eq_some_iff, Option.bind_eq_some_iff]
    case pause l => grind
    case note bytes => grind
    case setup v => simp [setupOf_iff]
    case query q => simp [queryOf_iff]
    case awaitAttention f => grind
    case press c d w => simp [channelOf_iff]; grind
    case tap c p w k => simp [channelOf_iff]; grind
    case hold c => simp [channelOf_iff]
    case lift c => simp [channelOrAll_iff]
    case supply on => cases on <;> simp <;> omega
    case arm slot a => simp [armOf_iff]
    case collect slot => simp [slotOf_iff]
    case barrier l c d w => simp [barrierLineOf_iff, channelOrAll_iff]; grind

/-! ### The end of a read (R170, R171) -/

theorem sentRead_none {s : State} {tag : Nat} (h : ∀ x ∈ s.engine.queue, x.hasTag tag = false) : s.sentRead tag = none :=
  List.find?_eq_none.mpr fun x hx => by simp [h x hx]

theorem hasTag_of_sent {e : Entry} {r : SentRead} {tag : Nat} (hr : e.sent = some r) (ht : r.tag = tag) :
    e.hasTag tag = true := by
  simp [Entry.hasTag, hr, ht]

theorem sentRead_of_queue {s : State} {tag : Nat} {before after : List Entry} {e : Entry}
    (hq : s.engine.queue = before ++ e :: after) (he : e.hasTag tag = true) (hb : ∀ x ∈ before, x.hasTag tag = false) :
    s.sentRead tag = some e := by
  unfold State.sentRead
  rw [hq, List.find?_append, List.find?_eq_none.mpr fun x hx => by simp [hb x hx]]
  simp [he]

/-- Settles O27: the one entry with the tag is extended, or there is none. -/
theorem completionExtendsItsReadOrIsDiscarded : Obligations.CompletionExtendsItsReadOrIsDiscarded := by
  intro s tag first status data
  refine ⟨fun h => ⟨s, ?_, rfl⟩, fun before after e r hq hr ht hothers hstatus hfirst hlen => ?_⟩
  · show execReadCompletion tag status first data s = _
    unfold execReadCompletion
    rw [sentRead_none h]
  · subst hstatus hfirst
    have he := hasTag_of_sent hr ht
    have hb : ∀ x ∈ before, x.hasTag tag = false := fun x hx => hothers x (List.mem_append_left _ hx)
    have ha : ∀ x ∈ after, x.hasTag tag = false := fun x hx => hothers x (List.mem_append_right _ hx)
    have hext : exec (.readCompletion tag .success r.got.length data) s = .next (extendRead tag data s) := by
      show execReadCompletion _ _ _ _ _ = _
      unfold execReadCompletion
      rw [sentRead_of_queue hq he hb]
      unfold completeRead completionFaults
      have h1 : ¬e.req.length < r.got.length + data.length := by omega
      have h2 : ¬r.got.length + data.length = e.req.length := by omega
      simp [hr, h1, h2]
    refine ⟨_, hext, ?_⟩
    have same : ∀ l : List Entry, (∀ x ∈ l, x.hasTag tag = false) →
        (l.map fun x => if x.hasTag tag then x.extend data else x) = l :=
      fun l hl => (List.map_congr_left fun x hx => by rw [hl x hx]; rfl).trans (List.map_id _)
    unfold extendRead
    rw [hq, List.map_append, List.map_cons, same before hb, same after ha, if_pos he]
    unfold Entry.extend
    rw [hr]
    rfl

/-! ### Requests that a station has offered -/

theorem outcomeOffered_noticeKick {n : StationId} {bytes : List Byte} {s : State} (h : OutcomeOffered n bytes s) :
    OutcomeOffered n bytes (noticeKick s) := by
  intro ht
  have hw : outcomeWrite (noticeKick s) n bytes = outcomeWrite s n bytes := by
    unfold outcomeWrite
    rw [noticeKick_ctx]
  unfold OutcomeQueued
  rw [noticeKick_ctx, hw]
  exact (h (by simpa [TakesWrites] using ht)).imp id requestWaits_noticeKick

/-- A step that ends has offered its outcome write. -/
theorem endStep_offered {s : State} {n : StationId} {st : InFlight} (h : (s.ctx n).step = some st) (code : Code)
    (result : List Byte) : OutcomeOffered n (endBytes s n st code result) (endStep n code result s) := by
  unfold endStep
  rw [h]
  exact stationOffer_outcome n _ _

theorem freeRead_ctx (tag : Nat) (s : State) (n : StationId) : (freeRead tag s).ctx n = s.ctx n := by
  rw [State.ctx, st_congr (freeRead_frame tag s).2.2]

theorem freeRead_now (tag : Nat) (s : State) : (freeRead tag s).now = s.now := by simp [State.now, freeRead]

/-! ### The dispatch (R22, R24, R25) -/

/-- The reading of a record: its step where its fields pass their checks, BAD_STEP's otherwise. -/
theorem stepOfRecord_spec (bs : List Byte) (hasCohort : Bool) (start : Word) :
    let st := stepOfRecord bs hasCohort start
    (∀ op, op ≠ .invalid → (st.op = op ↔ DispositionPasses bs ∧ RecordGives bs hasCohort op)) ∧
    (natAt bs 1 / 4 % 4 = 1 → st.disp = .continue) ∧
    (natAt bs 1 / 4 % 4 = 2 → 1 ≤ natAt bs 1 / 16 → st.disp = .skip (natAt bs 1 / 16)) ∧
    (natAt bs 1 / 4 % 4 = 0 ∨ ¬DispositionPasses bs → st.disp = .halt) ∧
    st.noticeFlag = (byteAt bs 1).getLsbD 0 ∧ st.attached = (byteAt bs 1).getLsbD 1 ∧ st.deadline = leNat bs 4 2 ∧
    st.start = start ∧ st.handed = true := by
  refine ⟨fun op hop => ?_, fun h => ?_, fun h h1 => ?_, fun h => ?_, rfl, rfl, rfl, rfl, rfl⟩
  · rw [← dispositionOf_isSome_iff, ← stepOf_iff hop]
    unfold stepOfRecord
    cases (dispositionOf (byteAt bs 1)).isSome with
    | false => simpa using Ne.symm hop
    | true =>
      cases stepOf bs hasCohort with
      | none => simpa using Ne.symm hop
      | some x => simp
  · show (dispositionOf (byteAt bs 1)).getD .halt = _
    unfold dispositionOf
    unfold natAt at h
    rw [h]
    rfl
  · show (dispositionOf (byteAt bs 1)).getD .halt = _
    unfold dispositionOf
    unfold natAt at h h1 ⊢
    rw [h, if_neg (by omega)]
    rfl
  · show (dispositionOf (byteAt bs 1)).getD .halt = _
    rcases h with h | h
    · unfold dispositionOf
      unfold natAt at h
      rw [h]
      rfl
    · rw [← dispositionOf_isSome_iff] at h
      rw [Option.not_isSome_iff_eq_none.mp h]
      rfl

/-- A record with the tag of its sequence is dispatched, or ends with BAD_STEP; another is a STRIP_MISMATCH. -/
theorem dispatch_spec (s : State) (n : StationId) (bs : List Byte) :
    let c := s.ctx n
    let t := dispatch n bs s
    let st := stepOfRecord bs c.cohort.isSome s.now
    (BitVec.ofNat 16 (leNat bs 2 2) = c.retired → st.op ≠ .invalid →
      t.ctx n = { c with state := .running, step := some st }) ∧
    (BitVec.ofNat 16 (leNat bs 2 2) = c.retired → st.op = .invalid →
      (t.ctx n).state = .posting ∧ (t.ctx n).posting = .ordinary .badStep st.noticeFlag st.disp ∧
      (t.ctx n).lastRun = c.retired ∧ (t.ctx n).taken = c.taken ∧ (t.ctx n).retired = c.retired ∧
      OutcomeOffered n (outcomeBytes .badStep c.retired s.now s.now []) t) ∧
    (BitVec.ofNat 16 (leNat bs 2 2) ≠ c.retired →
      (t.ctx n).state = .posting ∧ (t.ctx n).posting = .mismatch ∧ (t.ctx n).lastRun = c.lastRun ∧
      (t.ctx n).taken = c.taken - 1 ∧ (t.ctx n).retired = c.retired ∧
      OutcomeOffered n (outcomeBytes .stripMismatch c.retired s.now s.now []) t) := by
  dsimp only
  unfold dispatch
  dsimp only
  refine ⟨fun htag hop => ?_, fun htag hop => ?_, fun htag => ?_⟩
  · rw [if_pos htag, if_neg hop]
    simp [State.ctx]
  · rw [if_pos htag, if_pos hop]
    generalize hu : s.setCtx n _ = u
    have hctx : u.ctx n = { s.ctx n with
        state := .running, step := some (stepOfRecord bs (s.ctx n).cohort.isSome s.now) } := by
      rw [← hu]
      simp [State.ctx]
    have hnow : u.now = s.now := by rw [← hu]; simp [State.now]
    have hstep : (u.ctx n).step = some (stepOfRecord bs (s.ctx n).cohort.isSome s.now) := by rw [hctx]
    have hoff := endStep_offered hstep .badStep []
    rw [(endStep_ends hstep .badStep []).1.1]
    unfold endBytes at hoff
    rw [hctx, hnow] at hoff
    unfold endedCtx
    rw [hctx]
    exact ⟨rfl, rfl, rfl, rfl, rfl, hoff⟩
  · rw [if_neg htag]
    unfold stripMismatch
    refine ⟨?_, ?_, ?_, ?_, ?_, stationOffer_outcome n _ _⟩ <;> unfold stationOffer <;> split <;> simp [State.ctx]

/-- Settles O28: the record's fields, and what the dispatch makes of them. -/
theorem fetchedRecordIsDispatched : Obligations.FetchedRecordIsDispatched := by
  refine ⟨stepOfRecord_spec, fun s n tag first data e r he hr hk hreq hfirst hlen hs hd hp => ?_⟩
  subst hfirst
  refine ⟨_, readCompletion_done he hr (by rw [hlen, hreq]), ?_⟩
  rw [hk]
  unfold readDone fetchCompleted
  dsimp only
  rw [freeRead_ctx, if_pos hs, if_neg (by simp [hd, hp]), noticeKick_ctx]
  have hspec := dispatch_spec (freeRead tag s) n (r.got ++ data)
  dsimp only at hspec
  rw [freeRead_ctx, freeRead_now] at hspec
  obtain ⟨hvalid, hbad, hstrip⟩ := hspec
  refine ⟨hvalid, fun ht hop => ?_, fun ht => ?_⟩
  · obtain ⟨h1, h2, h3, h4, h5, hoff⟩ := hbad ht hop
    exact ⟨h1, h2, h3, h4, h5, outcomeOffered_noticeKick hoff⟩
  · obtain ⟨h1, h2, h3, h4, h5, hoff⟩ := hstrip ht
    exact ⟨h1, h2, h3, h4, h5, outcomeOffered_noticeKick hoff⟩

end Sys2Proof.Proofs
end

section
/-! PROOFS. The Notice Block writer's message and holdoff, the end of a quiesce, the kinds of the sequencer, and the sending of a
request (R44 to R46, R167, R181, R182, R192). -/

namespace Sys2Proof.Proofs

open Sys2Proof.Machine Sys2Proof.Laws

/-! ### The message and the holdoff (R181, R182) -/

theorem offerMessage_eq (s : State) :
    offerMessage s = { s with
      notice := { s.notice with offered := true },
      engine := engineOffered s { kind := .message, addr := 0, length := 0, bytes := [] } } := by
  unfold offerMessage
  ext1
  case h4 => exact offer_notice _ _ (by simp)
  case h11 => exact offer_engine _ _
  all_goals simp

/-- The end of the holdoff: the writer is IDLE, or sends again. -/
theorem holdoffEnd_idle {s : State} (hp : s.notice.pending = false) :
    holdoffEnd s = { s with notice := { s.notice with writer := .idle, timer := none } } := by
  unfold holdoffEnd
  refine noticeKick_of_not ?_
  rintro ⟨h, _⟩
  have h : s.notice.pending = true := h
  rw [hp] at h
  cases h

theorem holdoffEnd_sends {s : State} (hp : s.notice.pending = true) (hs : s.ctl.state = .active) :
    (holdoffEnd s).notice.writer = .sending ∧ (holdoffEnd s).notice.count = s.notice.count + 1 ∧
    (holdoffEnd s).notice.pending = false ∧ (holdoffEnd s).notice.attention = s.notice.attention ∧
    (holdoffEnd s).notice.offered = false ∧ AwaitsHeld (holdoffEnd s) ∧
    (holdoffEnd s).engine = engineOffered s (noticeWrite s (s.notice.count + 1)) := by
  unfold holdoffEnd
  obtain ⟨hn, he, _, hawait⟩ := noticeKick_of_due
    (s := { s with notice := { s.notice with writer := .idle, timer := none } }) ⟨hp, rfl, .inl hs⟩
  exact ⟨by rw [hn]; rfl, by rw [hn]; rfl, by rw [hn]; rfl, by rw [hn]; rfl, by rw [hn]; rfl, hawait, he⟩

/-- Settles O32: both commands are due. -/
theorem messageFollowsBlockAndHoldoffEnds : Obligations.MessageFollowsBlockAndHoldoffEnds := by
  refine ⟨fun s hw ho hr ha hc => ⟨offerMessage s, ?_, offerMessage_eq s⟩, fun s hw ht => ?_⟩
  · exact congrArg Host.Outcome.next (if_pos (by simp [messageOfferDue, hw, ho, hr, ha, hc]))
  · have hdue : exec .holdoffEnd s = .next (holdoffEnd s) :=
      congrArg Host.Outcome.next (if_pos (by simp [holdoffDue, hw, ht]))
    exact ⟨fun hp => ⟨_, hdue, holdoffEnd_idle hp⟩, fun hp hs => ⟨_, hdue, holdoffEnd_sends hp hs⟩⟩

/-! ### The attention bit of an event (R177, R179, R180) -/

/-- An attention bit's event asks for a notice when the flag was set, or its bit goes from clear to set and is admitted. -/
theorem setAttention_asks (i : Nat) (s : State) :
    (setAttention i s).notice.pending = true ↔
      s.notice.pending = true ∨ (s.notice.attention.getLsbD i = false ∧ s.notice.mask.getLsbD i = true) := by
  rw [setAttention_notice_pending]
  simp

theorem setAttention_writer (i : Nat) (s : State) : (setAttention i s).notice.writer = s.notice.writer := by
  unfold setAttention
  split <;> rfl

theorem setAttention_count (i : Nat) (s : State) : (setAttention i s).notice.count = s.notice.count := by
  unfold setAttention
  split <;> rfl

/-- An event that sets an attention bit and then begins the send that is due follows R179 and R180. The changes between may be
any that leave the writer, the count, the pending flag and the part state. -/
theorem noticeFollows_of {i : Nat} {s u : State} (hpend : u.notice.pending = (setAttention i s).notice.pending)
    (hwriter : u.notice.writer = s.notice.writer) (hcount : u.notice.count = s.notice.count) :
    NoticeFollows i s (noticeKick u) := by
  have hmay : MayNotify (noticeKick u) ↔ MayNotify u := by
    unfold MayNotify
    rw [noticeKick_ctl]
  have hasks := setAttention_asks i s
  rw [← hpend] at hasks
  unfold NoticeFollows
  dsimp only
  rw [← hasks, hmay]
  refine ⟨fun ⟨hp, hw, hm⟩ => ?_, fun hno => ?_⟩
  · obtain ⟨h1, h2, h3, h4, h5, h6⟩ := noticeKick_begins (s := u) ⟨hp, by rw [hwriter]; exact hw, hm⟩
    exact ⟨h1, by rw [h2, hcount], h3, h4, h5, h6⟩
  · rw [noticeKick_of_not (s := u) fun ⟨hp, hw, hm⟩ => hno ⟨hp, by rw [← hwriter]; exact hw, hm⟩]
    exact ⟨hwriter, hcount, Iff.rfl⟩

/-- Settles O33: the destination of the quiesce. -/
theorem quiesceCompletesAtDestination : Obligations.QuiesceCompletesAtDestination := by
  intro s hs hidle hq hr hheld hw
  have hdrained : s.engine.drained = true := by simp [Engine.drained, hq, hr, hheld]
  have hdue : exec .quiesceComplete s = .next (quiesceComplete s) := by
    refine congrArg Host.Outcome.next (if_pos ?_)
    simp [quiesceDone, hs, hidle, hdrained, hw]
  refine ⟨fun hd => ⟨_, hdue, ?_⟩, fun hd => ⟨_, hdue, ?_⟩⟩
  · unfold quiesceComplete
    rw [hd]
  · unfold quiesceComplete
    rw [hd]
    dsimp only
    refine ⟨by simp, ?_, ?_, by simp, by simp, by simp⟩
    · rw [noticeKick_attention]
      exact setAttention_getLsbD_self _ (by decide)
    · refine noticeFollows_of ?_ (setAttention_writer _ _) (setAttention_count _ _)
      rw [setAttention_notice_pending, setAttention_notice_pending]

/-! ### The sequencer's own kinds (R44 to R46) -/

/-- A step that waits at its owning block. -/
theorem step_of_handed {s : State} {n : StationId} {st : InFlight} {op : StepOp} (h : Handed s n st op) :
    (s.ctx n).state = .running ∧ (s.ctx n).step = some st ∧ st.handed = true ∧ st.op = op := by
  obtain ⟨hs, hop⟩ := h
  obtain ⟨h1, h2, h3⟩ := handedStep_some.mp hs
  exact ⟨h1, h2, h3, hop⟩

/-- A step that has been taken, in its station. -/
theorem step_of_flying {s : State} {n : StationId} {st : InFlight} {op : StepOp} (h : Flying s n st op) :
    (s.ctx n).step = some st ∧ st.handed = false ∧ st.op = op := by
  obtain ⟨hs, hop⟩ := h
  obtain ⟨_, h2, h3⟩ := flyingStep_some.mp hs
  exact ⟨h2, h3, hop⟩

/-- A step that ends by itself. -/
theorem endStep_alone {s : State} {n : StationId} {st : InFlight} (h : (s.ctx n).step = some st) (code : Code)
    (result : List Byte) : StepEndsAlone n st code result s (endStep n code result s) := endStep_ends h code result

theorem onlyStation_setSt (s : State) (n : StationId) (x : Station) : OnlyStation n s (s.setSt n x) :=
  ⟨rfl, fun m hm => by rw [st_setSt, if_neg hm]⟩

theorem setSt_st_self (s : State) (n : StationId) (x : Station) : (s.setSt n x).st n = x := by rw [st_setSt, if_pos rfl]

theorem setCtx_ctx_self (s : State) (n : StationId) (x : Context) : (s.setCtx n x).ctx n = x := by
  rw [State.ctx, State.setCtx, setSt_st_self]

/-- Settles O34: PAUSE waits on the deadline timer, NOTE ends at once. -/
theorem pauseWaitsAndNoteEndsAtOnce : Obligations.PauseWaitsAndNoteEndsAtOnce := by
  refine ⟨fun s n st len h => ?_, fun s n st len h hd => ?_, fun s n st bytes h => ?_⟩
  · obtain ⟨hs, hop⟩ := h
    refine ⟨s.setCtx n { s.ctx n with step := some st.taken, deadline := some (len + 1) }, ?_, onlyStation_setSt _ _ _,
      setSt_st_self _ _ _⟩
    show execPause n s = _
    unfold execPause
    rw [hs]
    obtain ⟨op, _⟩ := st
    obtain rfl : op = .pause len := hop
    rfl
  · obtain ⟨hs, _, hop⟩ := step_of_flying h
    refine ⟨_, congrArg Host.Outcome.next (if_pos ?_), endStep_alone hs _ _⟩
    unfold pauseExpiryDue
    rw [h.1]
    dsimp only
    rw [hop]
    simp [State.expired, hd]
  · obtain ⟨_, hs, _, hop⟩ := step_of_handed h
    refine ⟨endStep n .ok bytes s, ?_, endStep_alone hs _ _⟩
    show execNote n s = _
    unfold execNote
    rw [h.1]
    dsimp only
    rw [hop]

/-- A slot holds a unit where one is bound to it. -/
theorem slotUnit_isNone_iff (s : State) (n : StationId) (slot : SlotId) :
    (s.slotUnit n slot).isNone = true ↔ ∀ u, (s.unit u).binding ≠ some (n, slot) := by
  unfold State.slotUnit
  simp [List.find?_eq_none]

/-- A SETUP may act when all channels are IDLE and no unit is bound to the station. -/
theorem setupAllowed_iff (s : State) (n : StationId) :
    setupAllowed s n = true ↔
      (∀ c, (s.chan n c).state = .idle) ∧ ∀ u slot, (s.unit u).binding ≠ some (n, slot) := by
  unfold setupAllowed
  simp only [Bool.and_eq_true, List.all_eq_true, List.mem_finRange, true_implies, beq_iff_eq, slotUnit_isNone_iff]
  exact ⟨fun ⟨hc, hu⟩ => ⟨hc, fun u slot => hu slot u⟩, fun ⟨hc, hu⟩ => ⟨hc, fun slot u => hu u slot⟩⟩

/-- Settles O35: the settings are set where SETUP may act. -/
theorem setupIsAllOrBusy : Obligations.SetupIsAllOrBusy := by
  intro s n st v h
  obtain ⟨_, hs, _, hop⟩ := step_of_handed h
  have hexec : exec (.setup n) s = .next (setupStep n v s) := by
    show execSetup n s = _
    unfold execSetup
    rw [h.1]
    dsimp only
    rw [hop]
  refine ⟨fun hc hu => ⟨_, hexec, ?_⟩, fun hbusy => ⟨_, hexec, ?_⟩⟩
  · unfold setupStep
    rw [if_pos ((setupAllowed_iff s n).mpr ⟨hc, hu⟩)]
    generalize ht : s.setCtx n { s.ctx n with settings := v } = t
    have hts : OnlyStation n s t := by
      rw [← ht]
      exact onlyStation_setSt _ _ _
    have hstep : (t.ctx n).step = some st := by rw [← ht, setCtx_ctx_self, hs]
    obtain ⟨hends, ⟨hframe, hother⟩, hst⟩ := endStep_ends hstep .ok []
    obtain ⟨hfs, hos⟩ := hts
    refine ⟨⟨?_, fun m hm => (hother m hm).trans (hos m hm)⟩, hends, ?_⟩
    · rw [hframe, hfs]
    · rw [hst, ← ht, State.setCtx, setSt_st_self]
  · unfold setupStep
    rw [if_neg]
    · exact endStep_alone hs _ _
    · rw [setupAllowed_iff]
      rintro ⟨hc, hu⟩
      rcases hbusy with ⟨c, h⟩ | ⟨u, slot, h⟩
      · exact h (hc c)
      · exact hu u slot h

end Sys2Proof.Proofs
end

section
/-! PROOFS. The sending of a request: what leaves the queue, what takes its place, and what its station held back behind it
(R164 to R168, R171, R173, R181, R182). -/

namespace Sys2Proof.Proofs

open Sys2Proof.Machine Sys2Proof.Laws

/-! ### The part-half write that an event has queued (R3) -/

/-- A queued part-half write shows its station as it stands. -/
theorem queuePartHalf_shows (n : StationId) (s : State) :
    PartHalfReports n (ShowsPartHalf n (queuePartHalf n s)) (queuePartHalf n s) := by
  intro h
  have hq : PartHalfNow n (queuePartHalf n s) :=
    partHalfNow_queuePartHalf (by simpa [TakesWrites] using h) (.inl rfl)
  exact PartHalfQueued.imp (fun bytes hb => ⟨_, hb⟩) rfl hq

/-- The begin of a send keeps what a station has queued. -/
theorem shows_noticeKick {n : StationId} {s : State} (h : PartHalfReports n (ShowsPartHalf n s) s) :
    PartHalfReports n (ShowsPartHalf n (noticeKick s)) (noticeKick s) := by
  intro ht
  have hq := h (by simpa [TakesWrites] using ht)
  refine PartHalfQueued.imp (fun bytes ⟨lastRead, hb⟩ => ⟨lastRead, ?_⟩) rfl (partHalfQueued_noticeKick hq)
  rw [hb, noticeKick_now, noticeKick_ctx, noticeKick_st]

/-- A station that arrives in IDLE has arrived as R37 says. -/
theorem arriveIdle_arrived (n : StationId) (s : State) : HasArrivedIdle n (arriveIdle n s) := by
  refine ⟨?_, ?_, ?_, ?_, ?_, ?_, ?_, queuePartHalf_shows n _⟩ <;> rw [arriveIdle_ctx]

theorem arrivedIdle_noticeKick {n : StationId} {s : State} (h : HasArrivedIdle n s) : HasArrivedIdle n (noticeKick s) := by
  obtain ⟨h1, h2, h3, h4, h5, h6, h7, h8⟩ := h
  have hc := noticeKick_ctx n s
  exact ⟨by rw [hc, h1], by rw [hc, h2], by rw [hc, h3], by rw [hc, h4], by rw [hc, h5], by rw [hc, h6], by rw [hc, h7],
    shows_noticeKick h8⟩

/-! ### The oldest unsent entry (R167) -/

theorem sendEntry_none {s : State} (h : ∀ e ∈ s.engine.queue, e.sent.isSome = true) : sendEntry s = s := by
  unfold sendEntry
  rw [List.dropWhile_eq_nil_iff.mpr h]

theorem sendEntry_some {s : State} {before after : List Entry} {e : Entry} (hq : s.engine.queue = before ++ e :: after)
    (hb : ∀ x ∈ before, x.sent.isSome = true) (he : e.sent = none) : sendEntry s = sendOne before e after s := by
  have hn : ¬(e.sent.isSome = true) := by rw [he]; simp
  have hdrop : (before ++ e :: after).dropWhile (fun x => x.sent.isSome) = e :: after := by
    rw [List.dropWhile_append_of_pos hb]
    exact List.dropWhile_cons_of_neg hn
  have htake : (before ++ e :: after).takeWhile (fun x => x.sent.isSome) = before := by
    have hnil : (e :: after).takeWhile (fun x => x.sent.isSome) = [] := List.takeWhile_cons_of_neg hn
    rw [List.takeWhile_append_of_pos hb, hnil, List.append_nil]
  unfold sendEntry
  rw [hq, hdrop, htake]

/-- A write that leaves the queue between `before` and `after`, the head of the room wait list taking its place. -/
def writeSent (before after : List Entry) (e : Entry) (s : State) : State :=
  { s with
    engine := { s.engine with
      queue := before ++ after ++ (s.engine.room.take 1).map (fun r => { req := r, sent := none }),
      room := s.engine.room.drop 1 },
    sentLog := { req := e.req, tag := none } :: s.sentLog }

/-- The room wait list refills the freed entry. -/
theorem refill_writeSent {s : State} {before after : List Entry} {e : Entry} (hq : s.engine.queue = before ++ e :: after)
    (hroom : QueueWithinRoom s ∨ s.engine.room = []) :
    let u := refill { s with
      engine := { s.engine with queue := before ++ after }, sentLog := { req := e.req, tag := none } :: s.sentLog }
    u = { writeSent before after e s with notice := { s.notice with awaitHeld := u.notice.awaitHeld } } ∧ AwaitsRefilled s u := by
  have hlen : (before ++ after).length < 16 ∨ s.engine.room = [] := by
    refine hroom.imp (fun h => ?_) id
    unfold QueueWithinRoom at h
    rw [hq] at h
    simp only [List.length_append, List.length_cons] at h ⊢
    omega
  dsimp only
  generalize hv : ({ s with
    engine := { s.engine with queue := before ++ after },
    sentLog := { req := e.req, tag := none } :: s.sentLog } : State) = v
  have hve : v.engine = { s.engine with queue := before ++ after } := by rw [← hv]
  have haw : AwaitsRefilled v (refill v) := refill_awaitsRefilled (by rw [hve]; exact hlen)
  have hvn : v.notice = s.notice := by rw [← hv]
  refine ⟨?_, fun n => ?_⟩
  · unfold refill writeSent
    split
    case h_1 hnil =>
      have hnil : s.engine.room = [] := by rw [hve] at hnil; exact hnil
      rw [← hv]
      simp [hnil]
    case h_2 r rest hr =>
      have hr : s.engine.room = r :: rest := by rw [hve] at hr; exact hr
      have hlt : v.engine.queue.length < Config.queueRoom := by
        rw [hve]
        exact hlen.resolve_right (by simp [hr])
      rw [if_pos hlt]
      unfold take
      rw [← hv, hr]
      simp
  · have h := haw n
    rw [hvn, hve] at h
    exact h

/-- A write is sent: the freed entry is refilled, then what its station kept is offered. -/
theorem exec_sendWrite {s : State} {before after : List Entry} {e : Entry} (hq : s.engine.queue = before ++ e :: after)
    (hb : ∀ x ∈ before, x.sent.isSome = true) (he : e.sent = none) (hk : e.req.kind.isRead = false)
    (hroom : QueueWithinRoom s ∨ s.engine.room = []) :
    ∃ u, exec .sendEntry s = .next (afterSend e.req.kind u) ∧
      u = { writeSent before after e s with notice := { s.notice with awaitHeld := u.notice.awaitHeld } } ∧
      AwaitsRefilled s u := by
  refine ⟨_, ?_, refill_writeSent hq hroom⟩
  show Host.Outcome.next (sendEntry s) = _
  rw [sendEntry_some hq hb he]
  unfold sendOne
  rw [if_neg (by simp [hk])]

/-! ### What a station kept behind its write (R165, R168) -/

/-- Once its earlier request has gone a station may offer the next. -/
theorem writeSent_ownBusy {s : State} {before after : List Entry} {e : Entry} {n : StationId}
    (hq : ∀ x ∈ before ++ after, x.req.kind ≠ .fetch n ∧ x.req.kind ≠ .outcome n)
    (hr : ∀ r ∈ s.engine.room, r.kind ≠ .fetch n ∧ r.kind ≠ .outcome n) :
    (writeSent before after e s).engine.ownBusy n = false := by
  have hqueue : ∀ x ∈ (writeSent before after e s).engine.queue, x.req.kind ≠ .fetch n ∧ x.req.kind ≠ .outcome n := by
    intro x hx
    rcases List.mem_append.mp hx with h | h
    · exact hq x h
    · obtain ⟨r, hrm, rfl⟩ := List.mem_map.mp h
      exact hr r (List.mem_of_mem_take hrm)
  have hroom : ∀ r ∈ (writeSent before after e s).engine.room, r.kind ≠ .fetch n ∧ r.kind ≠ .outcome n :=
    fun r h => hr r (List.mem_of_mem_drop h)
  unfold Engine.ownBusy Engine.inQueue Engine.inRoom
  simp only [Bool.or_eq_false_iff, List.any_eq_false, beq_iff_eq]
  exact ⟨⟨⟨fun x h => (hqueue x h).1, fun x h => (hqueue x h).2⟩, fun r h => (hroom r h).1⟩, fun r h => (hroom r h).2⟩

/-- A station that offers what it kept. -/
theorem stationOffer_free {s : State} {n : StationId} (h : s.engine.ownBusy n = false) (b : Backlog) :
    (stationOffer n b s).ctx n = { s.ctx n with backlog := none } ∧
    (stationOffer n b s).engine = engineOffered s (stationRequest s n b) ∧
    (stationOffer n b s).notice = s.notice := by
  unfold stationOffer
  rw [if_neg (by simp [h])]
  refine ⟨by simp [State.ctx], offer_engine _ _, ?_⟩
  rw [offer_notice]
  · simp
  · intro m
    cases b <;> simp [stationRequest]

/-- A read that DRAINING does not take is refused when it is offered, which ends its fetch phase (R39, R173). -/
theorem offerFetch_refused {s : State} {n : StationId} (hb : s.engine.ownBusy n = false) (hs : s.ctl.state = .quiescing)
    (hf : (s.ctx n).state = .fetching) (hd : (s.ctx n).disabling = true) :
    offerFetch n s = arriveIdle n (s.setCtx n { s.ctx n with backlog := none, taken := (s.ctx n).taken - 1 }) := by
  have hadm : admits s.ctl.state (.fetch n) = false := by rw [hs]; rfl
  unfold offerFetch
  rw [if_neg (by simp [hb, hadm])]
  unfold fetchEnded
  rw [if_pos (by rw [setCtx_ctx_self]; exact hf)]
  unfold fetchFailed
  dsimp only
  rw [setCtx_ctx_self, if_pos hd]
  congr 1
  unfold State.setCtx State.setSt
  have h : ∀ (x : Station), ({ s with stations := s.stations.set n.1 x n.2 } : State).st n = x := fun x => setSt_st_self s n x
  simp [h]

theorem queuePartHalf_inQueue_fetch (n m : StationId) (t : State) :
    (queuePartHalf m t).engine.inQueue (.fetch n) = t.engine.inQueue (.fetch n) := by
  have hin (e : Engine) : e.inQueue (.fetch n) = (queueKinds e).any (· == .fetch n) := by
    unfold Engine.inQueue queueKinds
    rw [List.any_map]
    rfl
  rcases queuePartHalf_engine m t with ⟨h, _⟩ | ⟨_, _, h⟩
  · rw [hin, hin, h]
  · rw [h, offer_engine]
    unfold engineOffered
    split
    · split
      · simp [Engine.inQueue, partHalfRequest]
      · rfl
    · rfl

theorem arriveIdle_inQueue_fetch (n : StationId) (s : State) :
    (arriveIdle n s).engine.inQueue (.fetch n) = s.engine.inQueue (.fetch n) :=
  queuePartHalf_inQueue_fetch n n _

/-- The message has been sent: the holdoff runs (R182). -/
theorem messageSent_holdoff {s : State} (h : s.ctl.holdoff ≠ 0) :
    messageSent s = { s with notice := { s.notice with writer := .holdoff, timer := some (25 * s.ctl.holdoff.toNat) } } := by
  unfold messageSent
  rw [if_neg h]
  have hm : micros s.ctl.holdoff.toNat = 25 * s.ctl.holdoff.toNat := Nat.mul_comm _ _
  rw [hm]

/-- The held update of a station whose part-half write has been sent is offered as a new one (R168). -/
theorem offerHeld_some {s : State} {n : StationId} {bytes : List Byte} (h : s.engine.held.get n = some bytes) :
    (offerHeld n s).stations = s.stations ∧
    (offerHeld n s).engine = engineOffered
      { s with engine := { s.engine with held := s.engine.held.set n.1 none n.2 } }
      { kind := .partHalf n, addr := s.ctl.base + BitVec.ofNat 64 (64 * n.1 + 32), length := 32, bytes := bytes } ∧
    AwaitsUntilTaken n s (offerHeld n s) := by
  unfold offerHeld
  rw [h]
  dsimp only
  refine ⟨by simp, offer_engine _ _, ?_⟩
  exact offer_awaitsUntilTaken { s with engine := { s.engine with held := s.engine.held.set n.1 none n.2 } } rfl

/-- Settles O26: a read stays as a sent one; a write leaves, and what follows depends on whose it was. -/
theorem sendEntrySendsOldestUnsent : Obligations.SendEntrySendsOldestUnsent := by
  refine ⟨fun s h => ⟨s, congrArg Host.Outcome.next (sendEntry_none h), rfl⟩, fun s before after e hq hb he => ?_⟩
  refine ⟨fun hk => ⟨_, congrArg Host.Outcome.next (sendEntry_some hq hb he), ?_⟩,
    fun hroom => ⟨fun hplain => ?_, fun n hk hown hwait => ?_, fun n bytes hk hheld => ?_, fun hk hh => ?_, fun hk hh => ?_⟩⟩
  · unfold sendOne
    rw [if_pos hk]
  · obtain ⟨u, hexec, hu, haw⟩ := exec_sendWrite hq hb he
      (by rcases hplain with h | ⟨n, h, _⟩ | ⟨n, h, _⟩ <;> rw [h] <;> rfl) hroom
    have hctx : ∀ n, u.ctx n = s.ctx n := fun n => by rw [hu]; rfl
    have hafter : afterSend e.req.kind u = u := by
      rcases hplain with h | ⟨n, h, hn⟩ | ⟨n, h, hn⟩ <;> rw [h]
      · rfl
      · exact offerBacklog_none (by rw [hctx]; exact hn)
      · have hheld : u.engine.held.get n = none := by rw [hu]; exact hn
        show offerHeld n u = u
        unfold offerHeld
        rw [hheld]
    rw [hafter] at hexec
    exact ⟨u, hexec, hu, haw⟩
  · obtain ⟨u, hexec, hu, haw⟩ := exec_sendWrite hq hb he (by rw [hk]; rfl) hroom
    have hctx : u.ctx n = s.ctx n := by rw [hu]; rfl
    have hnow : u.now = s.now := by rw [hu]; rfl
    have hctl : u.ctl = s.ctl := by rw [hu]; rfl
    have heng : u.engine = (writeSent before after e s).engine := by rw [hu]
    have hbusy : u.engine.ownBusy n = false := by
      rw [heng]
      exact writeSent_ownBusy hown hwait
    have hoffer : ∀ r, engineOffered u r = engineOffered (writeSent before after e s) r := by
      intro r
      unfold engineOffered
      rw [heng, hctl]
      rfl
    have hafter : afterSend e.req.kind u = offerBacklog n u := by rw [hk]; rfl
    rw [hafter] at hexec
    have hkept : ∀ b, offerBacklog n u = stationOffer n b u → stationRequest u n b = stationRequest s n b →
        Completes (exec .sendEntry s) fun t => t.ctx n = { s.ctx n with backlog := none } ∧
          t.engine = engineOffered (writeSent before after e s) (stationRequest s n b) ∧ AwaitsRefilled s t := by
      intro b hb' hreq
      rw [hb'] at hexec
      obtain ⟨h1, h2, h3⟩ := stationOffer_free hbusy b
      refine ⟨_, hexec, by rw [h1, hctx], by rw [h2, hoffer, hreq], ?_⟩
      unfold AwaitsRefilled at haw ⊢
      rw [h3]
      exact haw
    refine ⟨fun bytes hbk => ?_, fun hbk => ?_, fun hbk hs => ?_, fun hbk hs hf hd => ⟨_, hexec, ?_⟩⟩
    · refine hkept (.outcome bytes) ?_ ?_
      · unfold offerBacklog
        rw [hctx, hbk]
      · unfold stationRequest
        rw [hctx]
    · refine hkept .discarded ?_ ?_
      · unfold offerBacklog
        rw [hctx, hbk]
      · unfold stationRequest
        rw [hctx, hnow]
    · refine hkept .fetch ?_ ?_
      · unfold offerBacklog
        rw [hctx, hbk]
        exact offerFetch_active (by rw [hctl, hs]) n
      · unfold stationRequest
        rw [hctx]
    · have hrefused : offerBacklog n u =
          arriveIdle n (u.setCtx n { s.ctx n with backlog := none, taken := (s.ctx n).taken - 1 }) := by
        unfold offerBacklog
        rw [hctx, hbk, ← hctx]
        exact offerFetch_refused hbusy (by rw [hctl, hs]) (by rw [hctx, hf]) (by rw [hctx, hd])
      rw [hrefused]
      refine ⟨arriveIdle_arrived n _, ?_, ?_, ?_, ?_⟩
      · rw [arriveIdle_ctx, setCtx_ctx_self]
        simp [hf]
      · rw [arriveIdle_ctx, setCtx_ctx_self]
      · rw [arriveIdle_ctx, setCtx_ctx_self]
      · rw [arriveIdle_inQueue_fetch]
        show u.engine.inQueue (.fetch n) = false
        unfold Engine.ownBusy at hbusy
        simp only [Bool.or_eq_false_iff] at hbusy
        exact hbusy.1.1.1
  · obtain ⟨u, hexec, hu, haw⟩ := exec_sendWrite hq hb he (by rw [hk]; rfl) hroom
    have hheld' : u.engine.held.get n = some bytes := by
      rw [hu]
      exact hheld
    obtain ⟨hst, heng, htaken⟩ := offerHeld_some hheld'
    have hafter : afterSend e.req.kind u = offerHeld n u := by rw [hk]; rfl
    rw [hafter] at hexec
    refine ⟨_, hexec, by rw [hst, hu]; rfl, ?_, fun m => ?_⟩
    · rw [heng, hu]
      rfl
    · have hlen : u.engine.queue.length = (writeSent before after e s).engine.queue.length := by rw [hu]
      rw [htaken m, haw m, hlen]
      exact and_assoc
  · obtain ⟨u, hexec, hu, haw⟩ := exec_sendWrite hq hb he (by rw [hk]; rfl) hroom
    have hafter : afterSend e.req.kind u = messageSent u := by rw [hk]; rfl
    have hctl : u.ctl = s.ctl := by rw [hu]; rfl
    rw [hafter, messageSent_holdoff (by rw [hctl]; exact hh)] at hexec
    refine ⟨_, hexec, ?_, haw⟩
    rw [hctl, hu]
    rfl
  · obtain ⟨u, hexec, hu, haw⟩ := exec_sendWrite hq hb he (by rw [hk]; rfl) hroom
    have hafter : afterSend e.req.kind u = holdoffEnd u := by
      rw [hk]
      unfold afterSend messageSent
      rw [if_pos (by rw [hu]; exact hh)]
    rw [hafter] at hexec
    have hpend : u.notice.pending = s.notice.pending := by rw [hu]
    have hcount : u.notice.count = s.notice.count := by rw [hu]
    refine ⟨_, hexec, fun hp => ?_, fun hp hs => ?_⟩
    · rw [holdoffEnd_idle (by rw [hpend, hp])]
      refine ⟨?_, haw⟩
      rw [hu]
      rfl
    · obtain ⟨h1, h2, h3, _, h5, h6, h7⟩ := holdoffEnd_sends (s := u) (by rw [hpend, hp]) (by rw [hu]; exact hs)
      refine ⟨by rw [h2, hcount], h1, h3, h5, h6, ?_⟩
      rw [h7, hcount, hu]
      rfl

end Sys2Proof.Proofs
end

section
/-! PROOFS. The Probe Link Controllers: a link that is put on its line, the phases of a query, and recovery (R59 to R68, R75). -/

namespace Sys2Proof.Proofs

open Sys2Proof.Machine Sys2Proof.Laws

/-! ### A link that is looked at (R69, R70, R75, R77, R80) -/

/-- What a look at the line leaves of a link. -/
structure LookKept (l m : Link) : Prop where
  state : m.state = l.state
  copy : m.copy = l.copy
  bits : m.bits = l.bits
  outside : m.outside = l.outside
  waiting : m.waiting = l.waiting
  status : m.status = l.status
  len : m.len = l.len
  count : m.count = l.count
  buffer : m.buffer = l.buffer
  latch : m.latch = l.latch
  attnCount : m.attnCount = l.attnCount
  faultCount : m.faultCount = l.faultCount

theorem LookKept.refl (l : Link) : LookKept l l := ⟨rfl, rfl, rfl, rfl, rfl, rfl, rfl, rfl, rfl, rfl, rfl, rfl⟩

theorem lookKept_intervalBegun {l k : Link} (h : LookKept l k) : LookKept l (intervalBegun k) := by
  rw [intervalBegun_frame]
  exact ⟨h.state, h.copy, h.bits, h.outside, h.waiting, h.status, h.len, h.count, h.buffer, h.latch, h.attnCount, h.faultCount⟩

/-- The level that a look finds other than the monitor's. -/
def newLevel (l : Link) (attnMin : Nat) : Monitor := { high := l.high, age := 0, beganIn := l.state, attnMin := attnMin }

/-- A look either leaves the link or begins a new level and acts by the link's state. -/
theorem look_same {l : Link} (h : l.high = l.mon.high) (a : Nat) (w : Word) : l.look a w = l := if_pos h

theorem look_kept (l : Link) (a : Nat) (w : Word) : LookKept l (l.look a w) := by
  unfold Link.look Link.beginWait Link.beginByte Link.beginBit
  simp only [nextInterval_eq]
  split
  · exact .refl l
  · split
    case h_1 => split <;> exact ⟨rfl, rfl, rfl, rfl, rfl, rfl, rfl, rfl, rfl, rfl, rfl, rfl⟩
    case h_2 => exact lookKept_intervalBegun ⟨rfl, rfl, rfl, rfl, rfl, rfl, rfl, rfl, rfl, rfl, rfl, rfl⟩
    case h_5 =>
      split
      · exact ⟨rfl, rfl, rfl, rfl, rfl, rfl, rfl, rfl, rfl, rfl, rfl, rfl⟩
      · exact lookKept_intervalBegun ⟨rfl, rfl, rfl, rfl, rfl, rfl, rfl, rfl, rfl, rfl, rfl, rfl⟩
    all_goals exact ⟨rfl, rfl, rfl, rfl, rfl, rfl, rfl, rfl, rfl, rfl, rfl, rfl⟩

/-- The level of the line is not changed by a look. -/
theorem look_high (l : Link) (a : Nat) (w : Word) : (l.look a w).high = l.high :=
  have h := look_kept l a w
  high_eq_of h.state (fun _ => h.bits) h.outside

theorem drives_eq_of {l m : Link} (hs : m.state = l.state) (hb : m.bits = l.bits) : m.drives = l.drives := by
  unfold Link.drives
  rw [hs, hb]

/-- The monitor after a look. -/
theorem look_mon (l : Link) (a : Nat) (w : Word) :
    (l.look a w).mon = if l.high = l.mon.high then l.mon else newLevel l a := by
  unfold Link.look Link.beginWait Link.beginByte Link.beginBit
  simp only [nextInterval_eq]
  split
  case isTrue => rfl
  case isFalse =>
    split
    case h_1 => split <;> rfl
    case h_2 => rw [intervalBegun_frame]; rfl
    case h_5 =>
      split
      · rfl
      · rw [intervalBegun_frame]; rfl
    all_goals rfl

/-- The states in which a look takes note of the level and does nothing else. -/
def LooksOn (l : Link) : Prop :=
  l.state = .break ∨ l.state = .delimit ∨ l.state = .send ∨ l.state = .lineFault

theorem look_looksOn {l : Link} (h : LooksOn l) (a : Nat) (w : Word) :
    l.look a w = { l with mon := if l.high = l.mon.high then l.mon else newLevel l a } := by
  by_cases hh : l.high = l.mon.high
  · rw [look_same hh, if_pos hh]
  · unfold Link.look
    rw [if_neg hh, if_neg hh]
    dsimp only
    split
    case h_6 => rfl
    all_goals simp_all [LooksOn]

/-- In IDLE a look takes note of the level, and of an attention pulse that ends. -/
theorem look_idle {l : Link} (h : l.state = .idle) (a : Nat) (w : Word) :
    ∃ x r, l.look a w = { l with mon := x, recog := r } := by
  by_cases hh : l.high = l.mon.high
  · exact ⟨l.mon, l.recog, look_same hh a w⟩
  · unfold Link.look
    rw [if_neg hh]
    dsimp only
    split
    case h_1 =>
      split
      · exact ⟨_, _, rfl⟩
      · exact ⟨_, l.recog, rfl⟩
    case h_6 => exact ⟨_, l.recog, rfl⟩
    all_goals simp_all

/-- A link that enters RECOVER without a wait begins one when the line is recessive. -/
theorem look_recover_wait {l : Link} (h : l.state = .recover) (a : Nat) (w : Word) :
    (l.look a w).wait = if l.high = l.mon.high then l.wait else if l.high = true then some (8 * l.copy.gapLimit) else none := by
  unfold Link.look Link.beginWait
  rw [h]
  simp only [nextInterval_eq]
  cases l.high <;> cases l.mon.high <;> simp
  rw [intervalBegun_frame]

end Sys2Proof.Proofs
end

section
/-! PROOFS. The query from its break to its last bit, the answer, and the end of both (R63 to R76). -/

namespace Sys2Proof.Proofs

open Sys2Proof.Machine Sys2Proof.Laws

/-! ### Frames that follow each other -/

theorem onlyStationUnits_of {n : StationId} {s t : State} (h : OnlyStation n s t) : OnlyStationUnits n s t := by
  obtain ⟨hf, ho⟩ := h
  exact ⟨by rw [hf], ho⟩

theorem onlyStationUnits_trans {n : StationId} {s t u : State} (h : OnlyStationUnits n s t) (k : OnlyStationUnits n t u) :
    OnlyStationUnits n s u := by
  obtain ⟨hf, ho⟩ := h
  obtain ⟨kf, ko⟩ := k
  exact ⟨by rw [kf, hf], fun m hm => (ko m hm).trans (ho m hm)⟩

theorem onlyStationEngineUnits_of {n : StationId} {s t u : State} (h : OnlyStationUnits n s t) (k : OnlyStationEngine n t u) :
    OnlyStationEngineUnits n s u := by
  obtain ⟨hf, ho⟩ := h
  obtain ⟨kf, ko⟩ := k
  exact ⟨by rw [kf, hf], fun m hm => (ko m hm).trans (ho m hm)⟩

theorem onlyStationEngine_of {n : StationId} {s t u : State} (h : OnlyStation n s t) (k : OnlyStationEngine n t u) :
    OnlyStationEngine n s u := by
  obtain ⟨hf, ho⟩ := h
  obtain ⟨kf, ko⟩ := k
  exact ⟨by rw [kf, hf], fun m hm => (ko m hm).trans (ho m hm)⟩

theorem onlyStation_setCtx (s : State) (n : StationId) (x : Context) : OnlyStation n s (s.setCtx n x) := onlyStation_setSt _ _ _

theorem onlyStation_setLink (s : State) (n : StationId) (x : Link) : OnlyStation n s (s.setLink n x) := onlyStation_setSt _ _ _

theorem setCtx_link (s : State) (n : StationId) (x : Context) : ((s.setCtx n x).st n).link = (s.st n).link := by
  rw [State.setCtx, setSt_st_self]

theorem setLink_link (s : State) (n : StationId) (x : Link) : ((s.setLink n x).st n).link = x := by
  rw [State.setLink, setSt_st_self]

theorem onlyStationUnits_putLink (n : StationId) (l : Link) (s : State) : OnlyStationUnits n s (putLink n l s) :=
  (putLink_spec n l s).2.1

theorem putLink_link (n : StationId) (l : Link) (s : State) :
    ((putLink n l s).st n).link = l.look (s.ctx n).settings.attnMin s.now := by
  rw [(putLink_spec n l s).1]

/-- A step that ends after its link has changed. -/
theorem endStep_afterUnits {s t : State} {n : StationId} {st : InFlight} (hs : (s.ctx n).step = some st)
    (hc : t.ctx n = s.ctx n) (h : OnlyStationUnits n s t) (code : Code) (result : List Byte) :
    StepEnds n st code result s (endStep n code result t) ∧ OnlyStationEngineUnits n s (endStep n code result t) ∧
    ((endStep n code result t).st n).link = (t.st n).link := by
  obtain ⟨hf, _⟩ := id h
  obtain ⟨hends, honly, hst⟩ := endStep_after (s := s) (t := t) hs hc (by rw [hf]) (by rw [hf]) (by rw [hf]) code result
  exact ⟨hends, onlyStationEngineUnits_of h honly, by rw [hst]⟩

/-! ### The break (R60, R63, R64) -/

/-- A phase of bits begins on a link. -/
theorem beginPhase_eq (l : Link) (st : LinkState) (bits : List Bool) :
    l.beginPhase st bits =
      intervalBegun { l with state := st, bits := bits, mismatch := false, bitEnd := false, sample := 0, votes := [] } := by
  unfold Link.beginPhase Link.beginBit
  rw [nextInterval_eq]

theorem beginPhase_fields (l : Link) (st : LinkState) (bits : List Bool) :
    (l.beginPhase st bits).state = st ∧ (l.beginPhase st bits).bits = bits ∧ (l.beginPhase st bits).copy = l.copy ∧
    (l.beginPhase st bits).outside = l.outside ∧ (l.beginPhase st bits).mon = l.mon ∧
    (l.beginPhase st bits).waiting = l.waiting ∧ (l.beginPhase st bits).sample = 0 := by
  rw [beginPhase_eq, intervalBegun_frame]
  exact ⟨rfl, rfl, rfl, rfl, rfl, rfl, rfl⟩

/-- The level of a link that drives its line: high for one held high from outside (R67). -/
theorem high_of_drives {l : Link} (h : l.drives = true) : l.high = decide (l.outside = .high) := by
  unfold Link.high
  rw [h]
  cases l.outside <;> rfl

theorem high_of_released {l : Link} (h : l.drives = false) : l.high = decide (l.outside ≠ .low) := by
  unfold Link.high
  rw [h]
  cases l.outside <;> rfl

theorem beginBreak_begun (n : StationId) (s : State) :
    OnlyStationUnits n s (beginBreak n s) ∧ (beginBreak n s).ctx n = s.ctx n ∧ BreakBegun n s (beginBreak n s) := by
  refine ⟨onlyStationUnits_putLink _ _ _, by simp, ?_⟩
  unfold beginBreak BreakBegun
  dsimp only
  generalize hl0 : ({ (s.st n).link with copy := (s.ctx n).settings.linkCopy, acc := 0, waiting := false } : Link) = l0
  generalize hl : l0.beginPhase .break (List.replicate (s.ctx n).settings.breakLen false) = l
  obtain ⟨hst, hbits, hcopy, hout, hmon, hwait, hsample⟩ :=
    beginPhase_fields l0 .break (List.replicate (s.ctx n).settings.breakLen false)
  rw [hl] at hst hbits hcopy hout hmon hwait hsample
  obtain ⟨_, _, hsame, hsee⟩ := putLink_spec n l s
  have hkept := look_kept l (s.ctx n).settings.attnMin s.now
  have hlooks := look_looksOn (l := l) (.inl hst) (s.ctx n).settings.attnMin s.now
  have hout : l.outside = (s.st n).link.outside := by rw [hout, ← hl0]
  have hmon : l.mon = (s.st n).link.mon := by rw [hmon, ← hl0]
  have hcopy : l.copy = (s.ctx n).settings.linkCopy := by rw [hcopy, ← hl0]
  have hhigh : l.high = decide ((s.st n).link.outside = .high) := by
    rw [high_of_drives (by unfold Link.drives; rw [hst]), hout]
  rw [putLink_link]
  refine ⟨by rw [hkept.state, hst], by rw [hkept.copy, hcopy], by rw [hkept.bits, hbits], ?_, ?_, ?_, ?_, fun hfrac => ?_,
    fun hm => ?_⟩
  · rw [hkept.waiting, hwait, ← hl0]
  · rw [hlooks]
    exact hsample
  · rw [look_high, hhigh]
  · rw [look_mon_high, look_high]
  · have hlt : 0 + (s.ctx n).settings.divFrac < 16 := by omega
    rw [hlooks, ← hl, beginPhase_eq, ← hl0]
    unfold intervalBegun Settings.linkCopy
    dsimp only
    rw [if_pos hlt]
    exact ⟨Nat.zero_add _, rfl⟩
  · rw [hhigh, hmon, hm] at hsame hsee
    by_cases ho : (s.st n).link.outside = .high
    · rw [if_pos ho]
      exact hsame (by simp [ho])
    · rw [if_neg ho]
      have h := hsee (by simp [ho])
      simpa [ho] using h

/-- A step that its block takes. -/
theorem markTaken_eq (n : StationId) (st : InFlight) (s : State) :
    markTaken n st s = s.setCtx n { s.ctx n with step := some st.taken } := rfl

theorem exec_query {s : State} {n : StationId} {st : InFlight} {q : QuerySpec} (h : Handed s n st (.query q)) :
    exec (.query n) s = .next (queryStep n st s) := by
  show execQuery n s = _
  unfold execQuery
  rw [h.1]
  dsimp only
  rw [h.2]

theorem queryStep_waits {s : State} {n : StationId} {st : InFlight} (h1 : (s.st n).link.state ≠ .lineFault)
    (h2 : (s.st n).link.state = .idle → (s.st n).link.high = false) :
    queryStep n st s = (markTaken n st s).setLink n { (s.st n).link with waiting := true } := by
  unfold queryStep
  dsimp only
  split
  case h_1 h => exact (h1 h).elim
  case h_2 h => rw [if_neg (by rw [h2 h]; decide)]
  all_goals rfl

/-- Settles O39: the link's state decides. -/
theorem queryBeginsBreakOrWaits : Obligations.QueryBeginsBreakOrWaits := by
  refine ⟨fun s n st q h => ⟨fun hl => ⟨_, exec_query h, ?_⟩, fun hl hh => ⟨_, exec_query h, ?_⟩, fun h1 h2 => ⟨_, exec_query h, ?_⟩⟩,
    fun s n hw hl hh hr => ⟨beginBreak n s, congrArg Host.Outcome.next (if_pos ?_), ?_⟩⟩
  · obtain ⟨_, hs, _, _⟩ := step_of_handed h
    unfold queryStep
    dsimp only
    rw [hl]
    exact endStep_alone hs _ _
  · have hstep : queryStep n st s = beginBreak n (markTaken n st s) := by
      unfold queryStep
      dsimp only
      rw [hl]
      exact if_pos hh
    obtain ⟨honly, hctx, hbreak⟩ := beginBreak_begun n (markTaken n st s)
    have htaken : (markTaken n st s).ctx n = { s.ctx n with step := some st.taken } := setCtx_ctx_self _ _ _
    have hlink : ((markTaken n st s).st n).link = (s.st n).link := setCtx_link _ _ _
    rw [hstep]
    refine ⟨by rw [hctx, htaken], onlyStationUnits_trans (onlyStationUnits_of (onlyStation_setCtx _ _ _)) honly, ?_⟩
    unfold BreakBegun at hbreak ⊢
    rw [htaken, hlink] at hbreak
    exact hbreak
  · rw [queryStep_waits h1 h2, markTaken_eq]
    refine ⟨⟨by rfl, fun m hm => ?_⟩, ?_⟩
    · rw [(onlyStation_setLink _ _ _).2 m hm, (onlyStation_setCtx _ _ _).2 m hm]
    · rw [State.setLink, setSt_st_self, State.setCtx, setSt_st_self]
  · simp [breakBeginDue, hw, hl, hh, hr]
  · obtain ⟨honly, hctx, hbreak⟩ := beginBreak_begun n s
    exact ⟨hctx, honly, hbreak⟩

/-! ### RECOVER and IDLE (R75) -/

/-- The wait of a link that has entered RECOVER, once it rests from the entry. -/
theorem restFromEntry_wait {l : Link} (hs : l.state = .recover) (hw : l.wait = none) (a : Nat) (w : Word) :
    (l.look a w).restFromEntry.wait = if l.high = true then some (8 * l.copy.gapLimit) else none := by
  have hkw := look_recover_wait hs a w
  have hcopy := (look_kept l a w).copy
  have hhigh := look_high l a w
  generalize l.look a w = k at hkw hcopy hhigh ⊢
  unfold Link.restFromEntry
  rw [hhigh]
  by_cases hh : l.high = true
  · rw [hh] at hkw ⊢
    by_cases hm : true = l.mon.high
    · rw [if_pos hm, hw] at hkw
      rw [if_pos ⟨rfl, hkw⟩, if_pos rfl, Link.beginWait, nextInterval_eq, intervalBegun_frame, hcopy]
    · rw [if_neg hm, if_pos rfl] at hkw
      rw [if_neg (by simp [hkw]), if_pos rfl, hkw]
  · rw [if_neg (fun h => hh h.1), if_neg hh, hkw, hw]
    simp [hh]

theorem restFromEntry_kept (l : Link) : LookKept l l.restFromEntry := by
  unfold Link.restFromEntry Link.beginWait
  split
  · rw [nextInterval_eq]
    exact lookKept_intervalBegun ⟨rfl, rfl, rfl, rfl, rfl, rfl, rfl, rfl, rfl, rfl, rfl, rfl⟩
  · exact .refl l

/-- A link that enters RECOVER is released, and waits for the gap limit when its line is recessive. -/
theorem enterRecover_recovering (n : StationId) (s : State) :
    OnlyStationUnits n s (enterRecover n s) ∧ Recovering n s (enterRecover n s) := by
  unfold enterRecover
  dsimp only
  generalize hl : ({ (s.st n).link.atRest .recover with acc := 0 } : Link) = l
  have hst : l.state = .recover := by rw [← hl]; rfl
  have hdr : l.drives = false := by unfold Link.drives; rw [hst]
  have hw : l.wait = none := by rw [← hl]; rfl
  have hcopy : l.copy = (s.st n).link.copy := by rw [← hl]; rfl
  have hhigh : l.high = decide ((s.st n).link.outside ≠ .low) := by
    rw [high_of_released hdr, ← hl]
    rfl
  refine ⟨onlyStationUnits_trans (onlyStationUnits_putLink n l s) (onlyStationUnits_of (onlyStation_setLink _ _ _)), ?_⟩
  unfold Recovering
  rw [setLink_link, putLink_link]
  have hkept := look_kept l (s.ctx n).settings.attnMin s.now
  have hrest := restFromEntry_kept (l.look (s.ctx n).settings.attnMin s.now)
  have hdrives : (l.look (s.ctx n).settings.attnMin s.now).restFromEntry.drives = l.drives := by
    rw [drives_eq_of hrest.state hrest.bits, drives_eq_of hkept.state hkept.bits]
  refine ⟨by rw [hrest.state, hkept.state, hst], by rw [hdrives, hdr], ?_⟩
  rw [restFromEntry_wait hst hw, hhigh, hcopy]
  by_cases ho : (s.st n).link.outside = .low <;> simp [ho]

/-- Reception that ends with an error: the step ends, the link recovers (R70, R71, R72). -/
theorem receptionFails_of {s u : State} {n : StationId} {st : InFlight} (hs : (s.ctx n).step = some st)
    (hc : u.ctx n = s.ctx n) (hu : OnlyStation n s u) (ho : (u.st n).link.outside = (s.st n).link.outside)
    (hcopy : (u.st n).link.copy = (s.st n).link.copy) (code : Code) (result : List Byte) :
    ReceptionFails n st code result s (endStep n code result (enterRecover n u)) := by
  obtain ⟨honly, hrec⟩ := enterRecover_recovering n u
  obtain ⟨hends, hframe, hlink⟩ := endStep_afterUnits (t := enterRecover n u) hs (by rw [enterRecover_ctx, hc])
    (onlyStationUnits_trans (onlyStationUnits_of hu) honly) code result
  refine ⟨hends, hframe, ?_⟩
  unfold Recovering at hrec ⊢
  rw [ho, hcopy] at hrec
  rw [hlink]
  exact hrec

theorem onlyStation_refl (n : StationId) (s : State) : OnlyStation n s s := ⟨rfl, fun _ _ => rfl⟩

/-- A link that enters IDLE. -/
theorem linkIdle_spec (n : StationId) (s : State) :
    OnlyStationUnits n s (linkIdle n s) ∧ ((linkIdle n s).st n).link.state = .idle ∧
    ((linkIdle n s).st n).link.wait = none := by
  refine ⟨onlyStationUnits_putLink _ _ _, ?_⟩
  unfold linkIdle
  rw [putLink_link]
  obtain ⟨x, r, h⟩ := look_idle (l := (s.st n).link.atRest .idle) rfl (s.ctx n).settings.attnMin s.now
  rw [h]
  exact ⟨rfl, rfl⟩

/-! ### The query on the line (R54, R61, R64, R67, R68) -/

theorem flyingQuery_some {s : State} {n : StationId} {st : InFlight} {q : QuerySpec} (h : Flying s n st (.query q)) :
    s.flyingQuery n = some q := by
  unfold State.flyingQuery
  rw [h.1]
  dsimp only
  rw [h.2]

/-- A new phase of bits on the line: the link is in it with its bits, and nothing but the station and the units has changed. -/
theorem putLink_beginPhase (n : StationId) (s : State) (st : LinkState) (bits : List Bool) :
    let t := putLink n ((s.st n).link.beginPhase st bits) s
    OnlyStationUnits n s t ∧ t.ctx n = s.ctx n ∧ (t.st n).link.state = st ∧ (t.st n).link.bits = bits := by
  dsimp only
  rw [putLink_link]
  have hkept := look_kept ((s.st n).link.beginPhase st bits) (s.ctx n).settings.attnMin s.now
  obtain ⟨hst, hbits, _⟩ := beginPhase_fields (s.st n).link st bits
  exact ⟨onlyStationUnits_putLink _ _ _, by simp, by rw [hkept.state, hst], by rw [hkept.bits, hbits]⟩

/-- The first bit of a query's bytes is the start bit of LEAD. -/
theorem queryBits_head (q : QuerySpec) (c : LinkCopy) : (queryBits q c).head? = some false := by
  unfold queryBits queryFrame frameBits
  simp

theorem deadlineTicks_eq {st : InFlight} {op : StepOp} (h : st.op = op) : st.deadlineTicks = waitTicks st op.defaultDeadline := by
  unfold InFlight.deadlineTicks waitTicks
  rw [h]

/-- Settles O40: the phases of a query follow each other. -/
theorem queryIsSentOrEndsInBitError : Obligations.QueryIsSentOrEndsInBitError := by
  intro s n hend
  refine ⟨fun hm hl => ⟨_, congrArg Host.Outcome.next (if_pos (by simp [phaseDue, hl, hend, hm])), ?_⟩, fun st q hq =>
    ⟨fun hm hl => ⟨_, congrArg Host.Outcome.next (if_pos (by simp [phaseDue, hl, hend, hm])), ?_⟩,
      fun hm hl ha => ⟨_, congrArg Host.Outcome.next (if_pos (by simp [phaseDue, hl, hend, hm])), ?_⟩,
      fun hm hl ha => ⟨_, congrArg Host.Outcome.next (if_pos (by simp [phaseDue, hl, hend, hm])), ?_⟩,
      fun hm hl => ⟨_, congrArg Host.Outcome.next (if_pos ?_), ?_⟩⟩⟩
  · obtain ⟨honly, hctx, hst, hbits⟩ := putLink_beginPhase n s .delimit (List.replicate (s.st n).link.copy.delimiter true)
    exact ⟨honly, hctx, hst, hbits, by unfold Link.drives; rw [hst]⟩
  · obtain ⟨honly, hctx, hst, hbits⟩ := putLink_beginPhase n s .send (queryBits q (s.st n).link.copy)
    unfold delimiterEnd
    rw [flyingQuery_some hq]
    refine ⟨honly, hctx, hst, hbits, ?_⟩
    unfold Link.drives
    rw [hst, hbits, queryBits_head]
    rfl
  · obtain ⟨hs, _, hop⟩ := step_of_flying hq
    have hsent : querySent n s = endStep n .ok (emptyResult 0xFF) (linkIdle n s) := by
      unfold querySent
      rw [flyingQuery_some hq, hs]
      exact if_neg (by simp [ha])
    obtain ⟨honly, hidle, _⟩ := linkIdle_spec n s
    obtain ⟨hends, hframe, hlink⟩ := endStep_afterUnits (t := linkIdle n s) hs (by simp) honly .ok (emptyResult 0xFF)
    rw [hsent]
    exact ⟨hends, hframe, by rw [hlink, hidle]⟩
  · obtain ⟨hs, _, hop⟩ := step_of_flying hq
    have hsent : querySent n s = putLink n ((s.st n).link.emptied.atRest .awaitAnswer) (markWaiting n st s) := by
      unfold querySent
      rw [flyingQuery_some hq, hs]
      exact if_pos ha
    have hwaiting : (markWaiting n st s).ctx n = waitingCtx s n st 50 := by
      unfold markWaiting waitingCtx
      rw [setCtx_ctx_self, deadlineTicks_eq hop]
      rfl
    have hkept := look_kept ((s.st n).link.emptied.atRest .awaitAnswer) ((markWaiting n st s).ctx n).settings.attnMin
      (markWaiting n st s).now
    rw [hsent, putLink_ctx, putLink_link]
    refine ⟨onlyStationUnits_trans (onlyStationUnits_of (onlyStation_setCtx _ _ _)) (onlyStationUnits_putLink _ _ _),
      hwaiting, ?_⟩
    rw [hkept.state, hkept.status, hkept.len, hkept.count, hkept.buffer]
    exact ⟨rfl, rfl, rfl, rfl, rfl⟩
  · rcases hl with hl | hl | hl <;> simp [bitErrorDue, hl, hend, hm]
  · obtain ⟨hs, _, _⟩ := step_of_flying hq
    exact receptionFails_of hs rfl (onlyStation_refl n s) rfl rfl _ _

/-! ### The answer (R69 to R74) -/

theorem byteOfBits_range (b : Byte) : byteOfBits ((List.range 8).map (fun i => b.getLsbD i)) = b := by
  revert b
  decide +kernel

/-- The eight data bits of a frame are the byte's. -/
theorem byteOfBits_frameBits (stopBits : Nat) (b : Byte) : byteOfBits (((frameBits stopBits b).drop 1).take 8) = b := by
  have hbits : ((frameBits stopBits b).drop 1).take 8 = (List.range 8).map (fun i => b.getLsbD i) := by
    unfold frameBits
    simp
  rw [hbits, byteOfBits_range]

/-- A frame has its start bit 0 and its stop bits 1. -/
theorem badFrame_frameBits (stopBits : Nat) (b : Byte) : badFrame (frameBits stopBits b) = false := by
  unfold badFrame frameBits
  simp

theorem badFrame_of {bits : List Bool} (h : bits.head? ≠ some false ∨ false ∈ bits.drop 9) : badFrame bits = true := by
  unfold badFrame
  rcases h with h | h
  · simp [h]
  · have : (bits.drop 9).any (! ·) = true := List.any_eq_true.mpr ⟨false, h, rfl⟩
    rw [this, Bool.or_true]

theorem exec_answerByte {s : State} {n : StationId} {bits : List Bool} (hl : (s.st n).link.state = .receive)
    (hd : (s.st n).link.done = some bits) : exec (.answerByte n) s = .next (answerByte n bits s) := by
  show execAnswerByte n s = _
  unfold execAnswerByte answerByteDue
  rw [if_pos hl, hd]

/-- A byte of the answer that is well framed is judged by its content. -/
theorem answerByte_framed {s : State} {n : StationId} (stopBits : Nat) (b : Byte) :
    answerByte n (frameBits stopBits b) s =
      let r := judgeByte { (s.st n).link with done := none } b
      match r.2 with
      | .more => s.setLink n r.1
      | .error code index => answerError n code index r.1 s
      | .complete => endStep n (completeCode (s.flyingQuery n) r.1) (answerResult r.1 0xFF) (linkIdle n (s.setLink n r.1)) := by
  unfold answerByte
  rw [badFrame_frameBits, byteOfBits_frameBits]
  rfl

theorem linkBecomes_setLink (n : StationId) (m : Link) (s : State) : LinkBecomes n m s (s.setLink n m) :=
  ⟨onlyStation_setLink s n m, setSt_st_self _ _ _⟩

/-- An error in the answer, with the link that has received the byte. -/
theorem answerError_fails {s : State} {n : StationId} {st : InFlight} (hs : (s.ctx n).step = some st) {m : Link}
    (ho : m.outside = (s.st n).link.outside) (hc : m.copy = (s.st n).link.copy) (code : Code) (index : Nat) :
    ReceptionFails n st code (answerResult m index) s (answerError n code index m s) :=
  receptionFails_of hs (setLink_ctx s n n m) (onlyStation_setLink s n m) (by rw [setLink_link, ho]) (by rw [setLink_link, hc]) _ _

/-- Settles O41: framing first, then each byte by its place. -/
theorem answerBytesAreJudgedInOrder : Obligations.AnswerBytesAreJudgedInOrder := by
  intro s n
  refine ⟨fun hl hd => ⟨answerStart n s, congrArg Host.Outcome.next (if_pos (by simp [answerStartDue, hl, hd])), ?_⟩,
    fun st q hq hl => ⟨fun bits hd hbad => ⟨_, exec_answerByte hl hd, ?_⟩, fun b hd => ?_⟩⟩
  · have hbyte : (answerStart n s).st n = { s.st n with
        ctx := { s.ctx n with deadline := none },
        link := ({ (s.st n).link with state := .receive, startDue := false } : Link).beginByte } := by
      unfold answerStart
      rw [State.setLink, setSt_st_self, State.setCtx, setSt_st_self]
    refine ⟨⟨rfl, fun m hm => ?_⟩, by rw [State.ctx, hbyte], ?_⟩
    · unfold answerStart
      rw [(onlyStation_setLink _ _ _).2 m hm, (onlyStation_setCtx _ _ _).2 m hm]
    · rw [hbyte]
      unfold Link.beginByte Link.beginBit
      dsimp only
      rw [nextInterval_eq, intervalBegun_frame]
      exact ⟨rfl, rfl, rfl, rfl⟩
  · obtain ⟨hs, _, _⟩ := step_of_flying hq
    unfold answerByte
    rw [badFrame_of hbad]
    exact answerError_fails (m := { (s.st n).link with done := none }) hs rfl rfl _ _
  · obtain ⟨hs, _, _⟩ := step_of_flying hq
    have hexec := exec_answerByte hl hd
    rw [answerByte_framed] at hexec
    have hcheck : answerCheck { (s.st n).link with done := none } = answerCheck (s.st n).link := rfl
    unfold judgeByte at hexec
    dsimp only at hexec
    rw [hcheck] at hexec
    refine ⟨fun hc hb => ?_, fun hc hb => ?_, fun hc => ?_, fun hc hb => ?_, fun hc hb => ?_, fun h3 hc => ?_,
      fun hc hb => ?_, fun hc hb => ?_⟩
    · rw [if_pos hc, if_pos hb] at hexec
      exact ⟨_, hexec, linkBecomes_setLink _ _ _⟩
    · rw [if_pos hc, if_neg hb] at hexec
      refine ⟨_, hexec, ?_⟩
      have h := answerError_fails (m := { (s.st n).link with done := none, count := (s.st n).link.count + 1 }) hs rfl rfl .answerLead 0
      have hresult : answerResult { (s.st n).link with done := none, count := (s.st n).link.count + 1 } 0 =
          [(s.st n).link.status, (s.st n).link.len, 1, 0] ++ (s.st n).link.buffer := by
        simp [answerResult, hc]
      rw [hresult] at h
      exact h
    · rw [if_neg (by omega), if_pos hc] at hexec
      exact ⟨_, hexec, linkBecomes_setLink _ _ _⟩
    · rw [if_neg (by omega), if_neg (by omega), if_pos hc, if_pos hb] at hexec
      exact ⟨_, hexec, linkBecomes_setLink _ _ _⟩
    · rw [if_neg (by omega), if_neg (by omega), if_pos hc, if_neg (by omega)] at hexec
      refine ⟨_, hexec, ?_⟩
      have h := answerError_fails (m := { (s.st n).link with done := none, count := (s.st n).link.count + 1, len := b }) hs rfl rfl
        .answerLength 2
      have hresult : answerResult { (s.st n).link with done := none, count := (s.st n).link.count + 1, len := b } 2 =
          [(s.st n).link.status, b, 3, 2] ++ (s.st n).link.buffer := by
        simp [answerResult, hc]
      rw [hresult] at h
      exact h
    · rw [if_neg (by omega), if_neg (by omega), if_neg (by omega), if_pos hc] at hexec
      exact ⟨_, hexec, linkBecomes_setLink _ _ _⟩
    · rw [if_neg (by omega), if_neg (by omega), if_neg (by omega), if_neg (by omega), if_neg hb] at hexec
      exact ⟨_, hexec, answerError_fails (m := { (s.st n).link with done := none, count := (s.st n).link.count + 1 }) hs rfl rfl _ _⟩
    · rw [if_neg (by omega), if_neg (by omega), if_neg (by omega), if_neg (by omega), if_pos hb] at hexec
      generalize hm : ({ (s.st n).link with done := none, count := (s.st n).link.count + 1 } : Link) = m at hexec
      refine ⟨_, hexec, ?_⟩
      obtain ⟨honly, hidle, _⟩ := linkIdle_spec n (s.setLink n m)
      obtain ⟨hends, hframe, hlink⟩ := endStep_afterUnits (t := linkIdle n (s.setLink n m)) hs
        (by rw [linkIdle_ctx, setLink_ctx]) (onlyStationUnits_trans (onlyStationUnits_of (onlyStation_setLink s n m)) honly)
        (completeCode (s.flyingQuery n) m) (answerResult m 0xFF)
      refine ⟨?_, hframe, by rw [hlink, hidle]⟩
      have hcode : completeCode (s.flyingQuery n) m =
          if q.expectStatus = true ∧ (s.st n).link.status ≠ q.status then .statusMismatch else .ok := by
        rw [flyingQuery_some hq, ← hm]
        unfold completeCode QuerySpec.statusFails
        simp
      rw [← hcode]
      rw [← hm] at hends ⊢
      exact hends

/-! ### Silence (R69, R71, R75) -/

/-- Settles O42: each end by its own timer. -/
theorem silenceEndsAnswerAndRecovery : Obligations.SilenceEndsAnswerAndRecovery := by
  intro s n
  refine ⟨fun st hs hl hd => ⟨_, congrArg Host.Outcome.next (if_pos (by simp [noAnswerDue, hl, State.expired, hd])), ?_⟩,
    fun st hs hl hb hdone hw => ⟨_, congrArg Host.Outcome.next (if_pos (by simp [gapTimeoutDue, hl, hb, hdone, hw])), ?_⟩,
    fun hl hw => ⟨linkIdle n s, congrArg Host.Outcome.next (if_pos (by simp [recoverEndDue, hl, hw])), ?_⟩⟩
  · exact receptionFails_of hs rfl (onlyStation_refl n s) rfl rfl _ _
  · exact answerError_fails hs rfl rfl _ _
  · obtain ⟨honly, hidle, hwait⟩ := linkIdle_spec n s
    exact ⟨honly, by simp, hidle, hwait⟩

end Sys2Proof.Proofs
end

section
/-! PROOFS. The levels of the probe lines, the stuck line and attention (R77 to R84, R125). -/

namespace Sys2Proof.Proofs

open Sys2Proof.Machine Sys2Proof.Laws

/-! ### A step that ends amid other changes -/

/-- A step that ends after changes that left its station's context, the time and its own requests alone. -/
theorem stepEndsAmid_of {s u : State} {n : StationId} {st : InFlight} (hs : (s.ctx n).step = some st)
    (hc : u.ctx n = s.ctx n) (hn : u.now = s.now) (hb : u.engine.ownBusy n = s.engine.ownBusy n) (code : Code)
    (result : List Byte) : StepEndsAmid n st code result s (endStep n code result u) := by
  have hu : (u.ctx n).step = some st := by rw [hc, hs]
  have hoff := endStep_offered hu code result
  have hctx := (endStep_ends hu code result).1.1
  have hbytes : endBytes u n st code result = endBytes s n st code result := by
    unfold endBytes
    rw [hc, hn]
  rw [hbytes] at hoff
  refine ⟨?_, hoff⟩
  rw [hctx]
  unfold endedCtx
  rw [hc, hb, hbytes]

/-- A queued part-half write is kept by a station's own request and by the end of its step. -/
theorem partHalfQueued_stationOffer {n m : StationId} {P : List Byte → Prop} {s : State} (h : PartHalfQueued n P s) (b : Backlog) :
    PartHalfQueued n P (stationOffer m b s) := by
  unfold stationOffer
  split
  · exact h
  · exact partHalfQueued_offer _ h

theorem partHalfQueued_endStep {n m : StationId} {P : List Byte → Prop} {s : State} (h : PartHalfQueued n P s) (code : Code)
    (result : List Byte) : PartHalfQueued n P (endStep m code result s) := by
  unfold endStep
  split
  · exact h
  · apply partHalfQueued_stationOffer
    exact h

/-- A part-half write queued before a step's end carries the bytes of that moment. -/
theorem reports_endStep {n : StationId} {P : List Byte → Prop} {u : State} (hP : P (partHalfBytes (u.st n) u.now)) (code : Code)
    (result : List Byte) : PartHalfReports n P (endStep n code result (queuePartHalf n u)) := by
  intro h
  have h' : TakesWrites (queuePartHalf n u) := by simpa [TakesWrites] using h
  refine partHalfQueued_endStep (PartHalfQueued.imp (fun bytes hb => ?_) rfl (queuePartHalf_reports n u h')) _ _
  rw [hb]
  exact hP

/-! ### The bytes of the part half (section 1.6) -/

theorem partHalfBytes_attnCount (x : Station) (w : Word) : (partHalfBytes x w)[13]? = some x.link.attnCount := rfl

theorem partHalfBytes_faultCount (x : Station) (w : Word) : (partHalfBytes x w)[14]? = some x.link.faultCount := rfl

theorem partHalfBytes_retired (x : Station) (w : Word) :
    ((partHalfBytes x w).drop 4).take 2 = leBytes 2 x.ctx.retired.toNat := rfl

theorem partHalfBytes_supply (x : Station) (w : Word) :
    (partHalfBytes x w)[11]? = some (BitVec.ofNat 8 x.power.supply.code) := rfl

/-! ### The part-half write of an event that changed its station alone -/

/-- The queuing of a part-half write, seen from the state before a change that left the engine, the time and Part Control. -/
theorem queuePartHalf_updates_of {s u : State} {n : StationId} (he : u.engine = s.engine) (hc : u.ctl = s.ctl) (ht : u.time = s.time) :
    PartHalfUpdates n (partHalfBytes ((queuePartHalf n u).st n) s.now) s (queuePartHalf n u) := by
  have h := queuePartHalf_updates n u
  have hnow : u.now = s.now := by rw [State.now, ht]; rfl
  have hw : TakesWrites u ↔ TakesWrites s := by unfold TakesWrites; rw [hc]
  rw [queuePartHalf_st]
  unfold PartHalfUpdates engineOffered at h ⊢
  rw [he, hc, hnow, hw] at h
  exact h

theorem queuePartHalf_awaits_of {s u : State} {n : StationId} (he : u.engine = s.engine) (hn : u.notice = s.notice) :
    AwaitsUntilTaken n s (queuePartHalf n u) := by
  have h := queuePartHalf_awaitsUntilTaken n u
  unfold AwaitsUntilTaken at h ⊢
  rw [he, hn] at h
  exact h

/-- The queuing of a part-half write changes the engine and the awaited updates alone. -/
theorem queuePartHalf_frame (n : StationId) (s : State) :
    queuePartHalf n s = { s with
      engine := (queuePartHalf n s).engine, notice := { s.notice with awaitHeld := (queuePartHalf n s).notice.awaitHeld } } := by
  ext1
  case h4 => exact queuePartHalf_notice n s
  all_goals simp

theorem onlyStationShared_of {n : StationId} {s t : State} (h : OnlyStationUnits n s t) : OnlyStationShared n s t := by
  obtain ⟨hf, ho⟩ := h
  exact ⟨by rw [hf], ho⟩

theorem onlyStationShared_trans {n : StationId} {s t u : State} (h : OnlyStationShared n s t) (k : OnlyStationShared n t u) :
    OnlyStationShared n s u := by
  obtain ⟨hf, ho⟩ := h
  obtain ⟨kf, ko⟩ := k
  exact ⟨by rw [kf, hf], fun m hm => (ko m hm).trans (ho m hm)⟩

theorem queuePartHalf_shared (n m : StationId) (s : State) : OnlyStationShared n s (queuePartHalf m s) :=
  ⟨by rw [queuePartHalf_frame], fun k _ => queuePartHalf_st m k s⟩

theorem endStep_shared {s : State} {n : StationId} (code : Code) (result : List Byte) :
    OnlyStationShared n s (endStep n code result s) := by
  cases e : (s.ctx n).step with
  | none =>
    rw [endStep_none e]
    exact ⟨rfl, fun _ _ => rfl⟩
  | some st =>
    obtain ⟨_, ⟨hf, ho⟩, _⟩ := endStep_ends e code result
    exact ⟨by rw [hf], ho⟩

theorem endStep_link {s : State} {n : StationId} (code : Code) (result : List Byte) :
    ((endStep n code result s).st n).link = (s.st n).link := by
  cases e : (s.ctx n).step with
  | none => rw [endStep_none e]
  | some st => rw [(endStep_ends e code result).2.2]

/-! ### The levels of the line (R77 to R80) -/

/-- An attention pulse that ends is recognised, and no other level (R80). -/
theorem look_recog (l : Link) (a : Nat) (w : Word) :
    let pulse := l.high = true ∧ l.mon.high = false ∧ l.state = .idle ∧ l.mon.beganIn = .idle ∧
      l.mon.attnMin * 25000 ≤ l.mon.age ∧ l.mon.age ≤ 625000
    (pulse → (l.look a w).recog = some w) ∧ (¬pulse → (l.look a w).recog = l.recog) := by
  have hpulse : l.mon.pulse = true ↔
      l.mon.beganIn = .idle ∧ l.mon.attnMin * 25000 ≤ l.mon.age ∧ l.mon.age ≤ 625000 := by
    unfold Monitor.pulse Config.stuckPeriods
    simp [and_assoc]
  dsimp only
  by_cases hh : l.high = l.mon.high
  · rw [look_same hh]
    exact ⟨fun ⟨h1, h2, _⟩ => (by rw [hh, h2] at h1; cases h1), fun _ => rfl⟩
  · unfold Link.look Link.beginWait Link.beginByte Link.beginBit
    simp only [nextInterval_eq]
    rw [if_neg hh]
    split
    case h_1 hs hhigh =>
      have hm : l.mon.high = false := by
        rw [hhigh] at hh
        simpa using Ne.symm hh
      refine ⟨fun ⟨_, _, _, hp⟩ => by rw [if_pos (hpulse.mpr hp)], fun hno => ?_⟩
      rw [if_neg fun hp => hno ⟨hhigh, hm, hs, hpulse.mp hp⟩]
    case h_2 hs _ =>
      refine ⟨fun ⟨_, _, hi, _⟩ => (by rw [hs] at hi; cases hi), fun _ => by rw [intervalBegun_frame]⟩
    case h_5 hs _ =>
      refine ⟨fun ⟨_, _, hi, _⟩ => (by rw [hs] at hi; cases hi), fun _ => ?_⟩
      split
      · rfl
      · rw [intervalBegun_frame]
    case h_6 h1 _ _ _ _ => exact ⟨fun ⟨hi, _, hs, _⟩ => (h1 hs hi).elim, fun _ => rfl⟩
    case h_3 hs _ => exact ⟨fun ⟨_, _, hi, _⟩ => (by rw [hs] at hi; cases hi), fun _ => rfl⟩
    case h_4 hs _ => exact ⟨fun ⟨_, _, hi, _⟩ => (by rw [hs] at hi; cases hi), fun _ => rfl⟩

/-- Settles O43: a look at the line by every drive of the world outside, and the two ends of a stuck line. -/
theorem probeLevelsAndTheStuckLine : Obligations.ProbeLevelsAndTheStuckLine := by
  intro s n
  refine ⟨fun outside => ⟨_, rfl, ?_⟩, fun hm ha hl => ⟨lineFaultEntry n s, congrArg Host.Outcome.next (if_pos ?_), ?_⟩,
    fun hl hm ha => ⟨linkIdle n s, congrArg Host.Outcome.next (if_pos ?_), ?_⟩⟩
  · generalize hx : ({ (s.st n).link with outside := outside } : Link) = x
    have hstate : x.state = (s.st n).link.state := by rw [← hx]
    have hmon : x.mon = (s.st n).link.mon := by rw [← hx]
    have hrec : x.recog = (s.st n).link.recog := by rw [← hx]
    have hout : x.outside = outside := by rw [← hx]
    have hdr : x.drives = (s.st n).link.drives := by rw [← hx]; rfl
    obtain ⟨_, honly, hsame, hsee⟩ := putLink_spec n x s
    have hkept := look_kept x (s.ctx n).settings.attnMin s.now
    have hhigh := look_high x (s.ctx n).settings.attnMin s.now
    have hlmon := look_mon x (s.ctx n).settings.attnMin s.now
    dsimp only
    rw [putLink_link, hhigh, ← hmon]
    refine ⟨honly, by simp, by rw [hkept.state, hstate], by rw [hkept.outside, hout], ?_, look_mon_high _ _ _,
      fun h => ⟨look_same h _ _, hsame h⟩, fun h => ?_, ?_⟩
    · unfold Link.high
      rw [hout, hdr]
      cases outside <;> simp
    · rw [if_neg h] at hlmon
      have htaken := look_levelTaken x (s.ctx n).settings.attnMin s.now h
      refine ⟨by rw [hlmon]; rfl, by rw [hlmon, ← hstate]; rfl, by rw [hlmon]; rfl, hsee h, ?_⟩
      have hbase : ({ (s.st n).link with
          outside := outside, mon := (x.look (s.ctx n).settings.attnMin s.now).mon } : Link) =
          { x with mon := newLevel x (s.ctx n).settings.attnMin } := by
        rw [hlmon, ← hx]
      rw [hbase]
      exact htaken
    · rw [← hstate, ← hrec]
      exact look_recog x _ _
  · simp [lineFaultEntryDue, hm, ha, hl, Config.stuckPeriods]
  · unfold lineFaultEntry
    dsimp only
    generalize hx : ({ (s.st n).link.atRest .lineFault with
      waiting := false, faultCount := (s.st n).link.faultCount + 1 } : Link) = x
    have hst : x.state = .lineFault := by rw [← hx]; rfl
    have hkept := look_kept x (s.ctx n).settings.attnMin s.now
    have hlink := putLink_link n x s
    have honly := onlyStationUnits_putLink n x s
    have hctx : (putLink n x s).ctx n = s.ctx n := by simp
    have hnow : (putLink n x s).now = s.now := by simp [State.now]
    have hengine : (putLink n x s).engine = s.engine := by simp
    have hctl : (putLink n x s).ctl = s.ctl := by simp
    have htime : (putLink n x s).time = s.time := by simp
    have hnotice : (putLink n x s).notice = s.notice := by simp
    generalize putLink n x s = u at hlink honly hctx hnow hengine hctl htime hnotice
    have hshared : OnlyStationShared n s (queuePartHalf n u) :=
      onlyStationShared_trans (onlyStationShared_of honly) (queuePartHalf_shared n n u)
    have hlink' : ∀ t : State, (t.st n).link = (u.st n).link → (t.st n).link.state = .lineFault ∧ (t.st n).link.drives = false ∧
        (t.st n).link.faultCount = (s.st n).link.faultCount + 1 ∧ (t.st n).link.waiting = false := by
      intro t ht
      have hstate : (t.st n).link.state = .lineFault := by rw [ht, hlink, hkept.state, hst]
      refine ⟨hstate, ?_, ?_, ?_⟩
      · unfold Link.drives
        rw [hstate]
      · rw [ht, hlink, hkept.faultCount, ← hx]
      · rw [ht, hlink, hkept.waiting, ← hx]
    cases hq : (s.flyingQuery n).isSome with
    | true =>
      rw [if_pos rfl]
      obtain ⟨h1, h2, h3, h4⟩ := hlink' (endStep n .lineStuck (emptyResult 0xFF) (queuePartHalf n u))
        (by rw [endStep_link, queuePartHalf_st])
      refine ⟨onlyStationShared_trans hshared (endStep_shared _ _), h1, h2, h3, h4, fun st q hf => ⟨?_, ?_⟩, fun hno => ?_⟩
      · exact stepEndsAmid_of (step_of_flying hf).1 (by rw [queuePartHalf_ctx, hctx]) (by rw [queuePartHalf_now, hnow])
          (by rw [queuePartHalf_ownBusy, hengine]) _ _
      · refine reports_endStep ?_ _ _
        rw [partHalfBytes_faultCount, hlink, hkept.faultCount, ← hx]
      · exfalso
        unfold State.flyingQuery at hq
        split at hq
        · split at hq
          · rename_i st hf _ q hop
            exact hno st q ⟨hf, hop⟩
          · cases hq
        · cases hq
    | false =>
      rw [if_neg (by decide)]
      obtain ⟨h1, h2, h3, h4⟩ := hlink' (queuePartHalf n u) (by rw [queuePartHalf_st])
      refine ⟨hshared, h1, h2, h3, h4, fun st q hf => ?_, fun _ => ⟨by rw [queuePartHalf_ctx, hctx],
        queuePartHalf_updates_of hengine hctl htime, queuePartHalf_awaits_of hengine hnotice⟩⟩
      rw [flyingQuery_some hf] at hq
      cases hq
  · simp [lineFaultEndDue, hl, hm, ha, Config.faultRestPeriods]
  · obtain ⟨honly, hidle, _⟩ := linkIdle_spec n s
    exact ⟨honly, by simp, hidle⟩

/-! ### Attention (R81 to R84, R125) -/

theorem exec_awaitAttention {s : State} {n : StationId} {st : InFlight} {fresh : Bool}
    (h : Handed s n st (.awaitAttention fresh)) : exec (.awaitAttention n) s = .next (awaitAttentionStep n st fresh s) := by
  show execAwaitAttention n s = _
  unfold execAwaitAttention
  rw [h.1]
  dsimp only
  rw [h.2]

theorem awaitsAttention_iff (s : State) (n : StationId) :
    s.awaitsAttention n = true ↔ ∃ st fresh, Flying s n st (.awaitAttention fresh) := by
  unfold State.awaitsAttention Flying
  cases s.flyingStep n with
  | none => simp
  | some st =>
    dsimp only
    constructor
    · intro h
      split at h
      · rename_i fresh hop
        exact ⟨st, fresh, rfl, hop⟩
      · cases h
    · rintro ⟨st', fresh, h, hop⟩
      obtain rfl := Option.some.inj h
      rw [hop]

/-- The start event of attention reaches the units that are ARMED with it, and leaves everything else. -/
theorem startUnits_unit (n : StationId) (cond : StartCond) (stamp : Word) (s : State) (u : UnitId) :
    (startUnits n cond stamp s).unit u =
      if (s.unit u).binding.map Prod.fst = some n ∧ (s.unit u).state = .armed ∧ (s.unit u).arm.start = cond then
        (s.unit u).begin stamp
      else s.unit u := get_map ..

theorem startUnits_shared (n : StationId) (cond : StartCond) (stamp : Word) (s : State) :
    OnlyStationShared n s (startUnits n cond stamp s) := ⟨rfl, fun _ _ => rfl⟩

/-- Settles O44: the latch, a recognition, and the deadline of a wait. -/
theorem attentionIsLatchedConsumedOrMissed : Obligations.AttentionIsLatchedConsumedOrMissed := by
  refine ⟨fun s n st fresh h => ⟨fun stamp hlatch hfresh => ⟨_, exec_awaitAttention h, ?_⟩,
    fun hwait => ⟨_, exec_awaitAttention h, ?_⟩⟩, fun s n stamp hrec => ⟨recognise n stamp s, ?_, ?_⟩,
    fun s n st fresh h hd => ⟨_, congrArg Host.Outcome.next (if_pos ?_), ?_⟩⟩
  · obtain ⟨_, hs, _, _⟩ := step_of_handed h
    have hstep : awaitAttentionStep n st fresh s =
        endStep n .ok (stampBytes stamp) (s.setLink n { (s.st n).link with latch := none }) := by
      unfold awaitAttentionStep
      rw [hlatch, hfresh]
    obtain ⟨hends, honly, hst⟩ := endStep_after (t := s.setLink n { (s.st n).link with latch := none }) hs
      (setLink_ctx _ _ _ _) rfl rfl rfl .ok (stampBytes stamp)
    rw [hstep]
    refine ⟨hends, onlyStationEngine_of (onlyStation_setLink _ _ _) honly, ?_⟩
    rw [hst, State.setLink, setSt_st_self]
  · obtain ⟨_, hs, _, hop⟩ := step_of_handed h
    have hstep : awaitAttentionStep n st fresh s = markWaiting n st (s.setLink n { (s.st n).link with latch := none }) := by
      unfold awaitAttentionStep
      dsimp only
      split
      · rename_i hl
        rcases hwait with h | h
        · rw [hl] at h
          cases h
        · cases h
      · rfl
    rw [hstep]
    unfold markWaiting
    refine ⟨⟨rfl, fun m hm => ?_⟩, ?_⟩
    · rw [(onlyStation_setCtx _ _ _).2 m hm, (onlyStation_setLink _ _ _).2 m hm]
    · rw [State.setCtx, setSt_st_self, setLink_ctx, State.setLink, setSt_st_self, deadlineTicks_eq hop]
      rfl
  · show execAttentionRecognition n s = _
    unfold execAttentionRecognition
    rw [hrec]
  · unfold recognise
    dsimp only
    generalize hx : ({ (s.st n).link with
      recog := none, attnCount := (s.st n).link.attnCount + 1,
      latch := if s.awaitsAttention n then none else some ((s.st n).link.latch.getD stamp) } : Link) = x
    have honly := onlyStation_setLink s n x
    have hlink := setLink_link s n x
    have hctx : (s.setLink n x).ctx n = s.ctx n := setLink_ctx s n n x
    generalize hw : s.setLink n x = w at honly hlink hctx
    have hengine : w.engine = s.engine := by rw [← hw]; rfl
    have hctl : w.ctl = s.ctl := by rw [← hw]; rfl
    have htime : w.time = s.time := by rw [← hw]; rfl
    have hnotice : w.notice = s.notice := by rw [← hw]; rfl
    have hunits : w.units = s.units := by rw [← hw]; rfl
    have hshared : OnlyStationShared n s (startUnits n .attention stamp (queuePartHalf n w)) :=
      onlyStationShared_trans (onlyStationShared_trans (onlyStationShared_of (onlyStationUnits_of honly))
        (queuePartHalf_shared n n w)) (startUnits_shared _ _ _ _)
    have hunit : ∀ u, (startUnits n .attention stamp (queuePartHalf n w)).unit u =
        if (s.unit u).binding.map Prod.fst = some n ∧ (s.unit u).state = .armed ∧ (s.unit u).arm.start = .attention then
          (s.unit u).begin stamp
        else s.unit u := by
      intro u
      have hu : (queuePartHalf n w).unit u = s.unit u := by
        unfold State.unit
        rw [queuePartHalf_units, hunits]
      rw [startUnits_unit, hu]
    cases hq : s.awaitsAttention n with
    | true =>
      rw [if_pos rfl]
      have hl : ((endStep n .ok (stampBytes stamp) (startUnits n .attention stamp (queuePartHalf n w))).st n).link = x := by
        rw [endStep_link]
        show ((queuePartHalf n w).st n).link = x
        rw [queuePartHalf_st, hlink]
      refine ⟨onlyStationShared_trans hshared (endStep_shared _ _), by rw [hl, ← hx], by rw [hl, ← hx], fun u => ?_,
        fun st fresh hf => ⟨by rw [hl, ← hx, hq]; rfl, ?_, ?_⟩, fun hno => ?_⟩
      · rw [State.unit, endStep_units]
        exact hunit u
      · refine stepEndsAmid_of (step_of_flying hf).1 ?_ ?_ ?_ _ _
        · show (queuePartHalf n w).ctx n = s.ctx n
          rw [queuePartHalf_ctx, hctx]
        · show (queuePartHalf n w).now = s.now
          rw [queuePartHalf_now, State.now, htime]
          rfl
        · show (queuePartHalf n w).engine.ownBusy n = s.engine.ownBusy n
          rw [queuePartHalf_ownBusy, hengine]
      · intro ht
        have ht' : TakesWrites (queuePartHalf n w) := by simpa [TakesWrites] using ht
        refine partHalfQueued_endStep (PartHalfQueued.imp (s := queuePartHalf n w)
          (t := startUnits n .attention stamp (queuePartHalf n w)) (fun bytes hb => ?_) rfl (queuePartHalf_reports n w ht')) _ _
        rw [hb, partHalfBytes_attnCount, hlink, ← hx]
      · obtain ⟨st, fresh, hf⟩ := (awaitsAttention_iff s n).mp hq
        exact (hno st fresh hf).elim
    | false =>
      rw [if_neg (by decide)]
      have hst : (startUnits n .attention stamp (queuePartHalf n w)).st n = (queuePartHalf n w).st n := rfl
      have hl : ((startUnits n .attention stamp (queuePartHalf n w)).st n).link = x := by
        rw [hst, queuePartHalf_st, hlink]
      refine ⟨hshared, by rw [hl, ← hx], by rw [hl, ← hx], hunit, fun st fresh hf => ?_, fun _ => ⟨?_, ?_, ?_, ?_⟩⟩
      · have := (awaitsAttention_iff s n).mpr ⟨st, fresh, hf⟩
        rw [hq] at this
        cases this
      · rw [hl, ← hx, hq]
        rfl
      · show (queuePartHalf n w).ctx n = s.ctx n
        rw [queuePartHalf_ctx, hctx]
      · rw [hst]
        exact queuePartHalf_updates_of hengine hctl htime
      · exact queuePartHalf_awaits_of hengine hnotice
  · simp [noAttentionDue, (awaitsAttention_iff s n).mpr ⟨st, fresh, h⟩, State.expired, hd]
  · exact endStep_alone (step_of_flying h).1 _ _

end Sys2Proof.Proofs
end

section
/-! PROOFS. The actuator channels (R86 to R98). -/

namespace Sys2Proof.Proofs

open Sys2Proof.Machine Sys2Proof.Laws

/-! ### A channel that changes -/

/-- A channel that is put without an edge. -/
theorem putChan_onlyChannel (n : StationId) (c : ChannelId) (x : Channel) (s : State) :
    OnlyChannel n c s (s.putChan n c x) ∧ (s.putChan n c x).chan n c = x := by
  refine ⟨⟨⟨rfl, fun m hm => ?_⟩, ?_, fun d hd => ?_⟩, ?_⟩
  · unfold State.putChan
    rw [st_setSt, if_neg hm]
  · unfold State.putChan State.ctx
    rw [setSt_st_self]
  · unfold State.chan State.putChan
    rw [setSt_st_self, get_set, if_neg hd]
  · unfold State.chan State.putChan
    rw [setSt_st_self, get_set, if_pos rfl]

/-- The state between a step's start and its end: the step stands in it up to its mark, and one channel may have changed. -/
structure ChannelSet (n : StationId) (c : ChannelId) (st : InFlight) (s t : State) : Prop where
  only : OnlyChannel n c s t
  step : (t.ctx n).step = some st
  ctx : t.ctx n = { s.ctx n with step := some st }
  engine : t.engine = s.engine

/-- A step that ends after its channel has changed. -/
theorem ChannelSet.ends {n : StationId} {c : ChannelId} {st st' : InFlight} {s t : State} (h : ChannelSet n c st' s t)
    (hst : st'.noticeFlag = st.noticeFlag ∧ st'.disp = st.disp ∧ st'.start = st.start) (code : Code) (result : List Byte) :
    StepEnds n st code result s (endStep n code result t) ∧ OnlyChannel n c s (endStep n code result t) ∧
    (endStep n code result t).chan n c = t.chan n c ∧ (endStep n code result t).units = t.units := by
  obtain ⟨⟨honly, hstn, hch⟩, hstep, hctx, hengine⟩ := h
  obtain ⟨⟨hctx', heng'⟩, honly', hst'⟩ := endStep_ends hstep code result
  obtain ⟨hflag, hdisp, hstart⟩ := hst
  obtain ⟨hf, ho⟩ := honly
  obtain ⟨kf, ko⟩ := honly'
  have hnow : t.now = s.now := by rw [State.now, hf]; rfl
  have hctl : t.ctl = s.ctl := by rw [hf]
  have hbytes : endBytes t n st' code result = endBytes s n st code result := by
    unfold endBytes
    rw [hctx, hnow, hstart]
  have hchans : ∀ d, (endStep n code result t).chan n d = t.chan n d := by
    intro d
    unfold State.chan
    rw [hst']
  refine ⟨⟨?_, ?_⟩, ⟨⟨?_, fun m hm => (ko m hm).trans (ho m hm)⟩, ?_, fun d hd => ?_⟩, hchans c, endStep_units _ _ _ _⟩
  · rw [hctx']
    unfold endedCtx
    rw [hbytes, hctx, hengine, hflag, hdisp]
  · have hwrite : outcomeWrite t n (endBytes s n st code result) = outcomeWrite s n (endBytes s n st code result) := by
      unfold outcomeWrite
      rw [hctx]
    have hoffer : ∀ r, engineOffered t r = engineOffered s r := fun r => by
      unfold engineOffered
      rw [hengine, hctl]
    rw [heng', hbytes, hwrite, hoffer, hengine]
  · rw [kf, hf]
  · rw [hst', hstn]
  · rw [hchans, hch d hd]

/-- A channel that changes while its station's step stands. -/
theorem channelSet_setChan {s : State} {n : StationId} {st : InFlight} (hs : (s.ctx n).step = some st) (c : ChannelId)
    (x : Channel) : ChannelSet n c st s (setChan n c x s) := by
  obtain ⟨_, honly, hctx, _⟩ := setChan_spec n c x s
  exact ⟨honly, by rw [hctx, hs], by rw [hctx, ← hs], by simp⟩

theorem channelSet_putChan {s : State} {n : StationId} {st : InFlight} (hs : (s.ctx n).step = some st) (c : ChannelId)
    (x : Channel) : ChannelSet n c st s (s.putChan n c x) := by
  have hctx : (s.putChan n c x).ctx n = s.ctx n := by
    unfold State.putChan State.ctx
    rw [setSt_st_self]
  exact ⟨(putChan_onlyChannel n c x s).1, by rw [hctx, hs], by rw [hctx, ← hs], rfl⟩

theorem outputEdge_of_units {n : StationId} {c : ChannelId} {change high : Bool} {s t u : State} (h : OutputEdge n c change high s t)
    (hu : u.units = t.units) : OutputEdge n c change high s u := by
  unfold OutputEdge UnitsSee State.unit at h ⊢
  rw [hu]
  exact h

/-- A channel's change and its step's end together. -/
theorem setChan_ends {s : State} {n : StationId} {st : InFlight} (hs : (s.ctx n).step = some st) (c : ChannelId) (x : Channel)
    (code : Code) (result : List Byte) :
    let t := endStep n code result (setChan n c x s)
    StepEnds n st code result s t ∧ OnlyChannel n c s t ∧ OutputEdge n c ((s.chan n c).output != x.output) x.output s t ∧
    t.chan n c = if (s.chan n c).output = false ∧ x.output = true then { x with stamp := s.now } else x := by
  obtain ⟨hends, honly, hchan, hunits⟩ := (channelSet_setChan hs c x).ends ⟨rfl, rfl, rfl⟩ code result
  obtain ⟨hset, _, _, hedge⟩ := setChan_spec n c x s
  exact ⟨hends, honly, outputEdge_of_units hedge hunits, by rw [hchan, hset]⟩

/-! ### PRESS (R88 to R91) -/

theorem exec_press {s : State} {n : StationId} {st : InFlight} {c : ChannelId} {delay width : Nat}
    (h : Handed s n st (.press c delay width)) : exec (.press n) s = .next (pressStep n st c delay width s) := by
  show execPress n s = _
  unfold execPress
  rw [h.1]
  dsimp only
  rw [h.2]

/-- A press that begins on an IDLE channel: its phase, its output and its stamp. -/
theorem startPress_spec {s : State} {n : StationId} {c : ChannelId} (h : (s.chan n c).state = .idle) (delay width : Nat) (att : Bool) :
    let t := startPress n c delay width att s
    OnlyChannel n c s t ∧ t.ctx n = s.ctx n ∧ t.engine = s.engine ∧ OutputEdge n c (decide (delay = 0)) true s t ∧
    t.chan n c =
      { state := if delay = 0 then .asserted else .delay, timer := some ((if delay = 0 then width else delay) + 1),
        pulse := .press width att, shadow := none, stamp := if delay = 0 then s.now else (s.chan n c).stamp } := by
  have hout : (s.chan n c).output = false := by
    unfold Channel.output
    rw [h]
  unfold startPress
  dsimp only
  generalize hx : ({ s.chan n c with
    state := if delay = 0 then .asserted else .delay, timer := some ((if delay = 0 then width else delay) + 1),
    pulse := .press width att, shadow := none } : Channel) = x
  have hxo : x.output = decide (delay = 0) := by
    unfold Channel.output
    rw [← hx]
    by_cases hd : delay = 0 <;> simp [hd]
  obtain ⟨hset, honly, hctx, hedge⟩ := setChan_spec n c x s
  rw [hout, hxo] at hset hedge
  refine ⟨honly, hctx, by simp, ?_, ?_⟩
  · unfold OutputEdge at hedge ⊢
    by_cases hd : delay = 0 <;> simpa [hd] using hedge
  · rw [hset, ← hx]
    by_cases hd : delay = 0 <;> simp [hd]

/-- Settles O45: an IDLE channel takes the press. -/
theorem pressTakesIdleChannelOrIsBusy : Obligations.PressTakesIdleChannelOrIsBusy := by
  intro s n st c delay width h
  obtain ⟨_, hs, _, _⟩ := step_of_handed h
  refine ⟨fun hbusy => ⟨_, exec_press h, ?_⟩, fun hidle => ⟨_, exec_press h, ?_⟩⟩
  · have hstep : pressStep n st c delay width s = endStep n .actuatorBusy [] s := by
      unfold pressStep
      split
      · contradiction
      all_goals rfl
    rw [hstep]
    exact endStep_alone hs _ _
  · have htaken : (markTaken n st s).ctx n = { s.ctx n with step := some st.taken } := setCtx_ctx_self _ _ _
    have hchan : ∀ d, (markTaken n st s).chan n d = s.chan n d := by
      intro d
      unfold State.chan
      rw [markTaken_eq, State.setCtx, setSt_st_self]
    have hidle' : ((markTaken n st s).chan n c).state = .idle := by rw [hchan, hidle]
    obtain ⟨⟨⟨hf, ho⟩, hstn, hother⟩, hctx, hengine, hedge, hset⟩ := startPress_spec hidle' delay width st.attached
    generalize ht : startPress n c delay width st.attached (markTaken n st s) = t at *
    have hnow : (markTaken n st s).now = s.now := rfl
    have honly : OnlyChannel n c s t := by
      refine ⟨⟨by rw [hf]; rfl, fun m hm => ?_⟩, ?_, fun d hd => by rw [hother d hd, hchan]⟩
      · rw [ho m hm, markTaken_eq, (onlyStation_setCtx _ _ _).2 m hm]
      · rw [hstn, markTaken_eq, State.setCtx, setSt_st_self]
    have hedge' : OutputEdge n c (decide (delay = 0)) true s t := hedge
    have hset' : t.chan n c =
        { state := if delay = 0 then .asserted else .delay, timer := some ((if delay = 0 then width else delay) + 1),
          pulse := .press width st.attached, shadow := none, stamp := if delay = 0 then s.now else (s.chan n c).stamp } := by
      rw [hset, hnow, hchan]
    have hcs : ChannelSet n c st.taken s t := ⟨honly, by rw [hctx, htaken], by rw [hctx, htaken], hengine⟩
    have hstep : pressStep n st c delay width s =
        if st.attached then t else endStep n .ok (if delay = 0 then stampBytes s.now else []) t := by
      unfold pressStep
      rw [hidle]
      dsimp only
      rw [ht]
    rw [hstep]
    cases hatt : st.attached with
    | true =>
      rw [if_pos rfl]
      rw [hatt] at hset'
      exact ⟨honly, hset', hedge', fun _ => ⟨by rw [hctx, htaken], hengine⟩, fun h => absurd h (by decide)⟩
    | false =>
      rw [if_neg Bool.false_ne_true]
      rw [hatt] at hset'
      obtain ⟨hends, honly', hch, hunits⟩ := hcs.ends (st := st) ⟨rfl, rfl, rfl⟩ .ok (if delay = 0 then stampBytes s.now else [])
      exact ⟨honly', by rw [hch, hset'], outputEdge_of_units hedge' hunits, fun h => absurd h (by decide), fun _ => hends⟩

/-! ### TAP, HOLD and LIFT (R93, R95, R97, R98) -/

theorem exec_tap {s : State} {n : StationId} {st : InFlight} {c : ChannelId} {period width count : Nat}
    (h : Handed s n st (.tap c period width count)) : exec (.tap n) s = .next (tapStep n c period width count s) := by
  show execTap n s = _
  unfold execTap
  rw [h.1]
  dsimp only
  rw [h.2]

theorem exec_hold {s : State} {n : StationId} {st : InFlight} {c : ChannelId} (h : Handed s n st (.hold c)) :
    exec (.hold n) s = .next (holdStep n c s) := by
  show execHold n s = _
  unfold execHold
  rw [h.1]
  dsimp only
  rw [h.2]

theorem exec_lift {s : State} {n : StationId} {st : InFlight} {c : Option ChannelId} (h : Handed s n st (.lift c)) :
    exec (.lift n) s = .next (liftStep n c s) := by
  show execLift n s = _
  unfold execLift
  rw [h.1]
  dsimp only
  rw [h.2]

/-- All channels of a list are lifted, and nothing but the station's channels and the units changes. -/
structure Lifted (n : StationId) (s t : State) : Prop where
  only : OnlyStationUnits n s t
  st : t.st n = { s.st n with chans := (t.st n).chans }
  engine : t.engine = s.engine

theorem lifted_liftChan {n : StationId} {c : ChannelId} {s t : State} (h : Lifted n s t) : Lifted n s (liftChan n c t) := by
  obtain ⟨_, ⟨⟨hf, ho⟩, hstn, _⟩, hctx, _⟩ := setChan_spec n c Channel.initial t
  have he : (liftChan n c t).engine = t.engine := by unfold liftChan; simp
  refine ⟨onlyStationUnits_trans h.only ⟨?_, ho⟩, ?_, he.trans h.engine⟩
  · rw [← he]
    exact hf
  · have hst' : (liftChan n c t).st n = { t.st n with chans := ((liftChan n c t).st n).chans } := by
      unfold liftChan
      rw [hstn, hctx]
    rw [hst', h.st]

theorem liftChan_chan (n : StationId) (c d : ChannelId) (s : State) :
    (liftChan n c s).chan n d = if d = c then Channel.initial else s.chan n d := by
  obtain ⟨hset, ⟨_, _, hother⟩, _, _⟩ := setChan_spec n c Channel.initial s
  unfold liftChan
  split
  · rename_i e
    subst e
    rw [hset]
    exact if_neg fun h => by cases h.2
  · next hd => exact hother d hd

theorem foldl_liftChan {n : StationId} (l : List ChannelId) {s t : State} (h : Lifted n s t) :
    Lifted n s (l.foldl (fun u c => liftChan n c u) t) ∧
    ∀ c, (c ∈ l ∨ t.chan n c = Channel.initial) → (l.foldl (fun u c => liftChan n c u) t).chan n c = Channel.initial := by
  induction l generalizing t with
  | nil => exact ⟨h, fun c hc => hc.resolve_left List.not_mem_nil⟩
  | cons d l ih =>
    obtain ⟨hl, hc⟩ := ih (lifted_liftChan (c := d) h)
    refine ⟨hl, fun c hcm => hc c ?_⟩
    rw [liftChan_chan]
    by_cases e : c = d
    · exact .inr (if_pos e)
    · rw [if_neg e]
      exact hcm.imp (fun hm => (List.mem_cons.mp hm).resolve_left e) id

/-- A station whose channels are all lifted. -/
theorem liftAll_spec (n : StationId) (s : State) : Lifted n s (liftAll n s) ∧ ∀ c, (liftAll n s).chan n c = Channel.initial := by
  obtain ⟨h, hc⟩ := foldl_liftChan (n := n) (List.finRange 4) (s := s) (t := s) ⟨⟨rfl, fun _ _ => rfl⟩, rfl, rfl⟩
  exact ⟨h, fun c => hc c (.inl (List.mem_finRange c))⟩

/-- Settles O46: each step by the state of its channel. -/
theorem tapHoldAndLiftActOnTheChannel : Obligations.TapHoldAndLiftActOnTheChannel := by
  refine ⟨fun s n st c period width count h => ?_, fun s n st c h => ?_, fun s n st => ⟨fun c h => ⟨_, exec_lift h, ?_⟩,
    fun h => ⟨_, exec_lift h, ?_⟩⟩⟩
  · obtain ⟨_, hs, _, _⟩ := step_of_handed h
    refine ⟨fun hc => ⟨_, exec_tap h, ?_⟩, fun hc => ⟨_, exec_tap h, ?_⟩, fun hc => ⟨_, exec_tap h, ?_⟩⟩
    · have hout : (s.chan n c).output = false := by unfold Channel.output; rw [hc]
      unfold tapStep
      rw [hc]
      dsimp only
      generalize hx : ({ s.chan n c with
        state := .tapOn, timer := some (width + 1), pulse := .tap period width (periodsLeft count), shadow := none } : Channel) = x
      have hxo : x.output = true := by rw [← hx]; rfl
      obtain ⟨hends, honly, hedge, hset⟩ := setChan_ends hs c x .ok []
      rw [hout, hxo] at hedge hset
      refine ⟨hends, honly, hedge, ?_⟩
      rw [hset, if_pos ⟨rfl, rfl⟩, ← hx]
      rfl
    · have hstep : tapStep n c period width count s = endStep n .ok []
          (s.putChan n c { s.chan n c with shadow := some { period := period, width := width, count := count } }) := by
        unfold tapStep
        rcases hc with hc | hc <;> rw [hc]
      obtain ⟨hends, honly, hset, hunits⟩ := (channelSet_putChan hs c
        { s.chan n c with shadow := some { period := period, width := width, count := count } }).ends ⟨rfl, rfl, rfl⟩ .ok []
      rw [hstep]
      exact ⟨hends, honly, hunits, by rw [hset, (putChan_onlyChannel _ _ _ _).2]⟩
    · have hstep : tapStep n c period width count s = endStep n .actuatorBusy [] s := by
        unfold tapStep
        rcases hc with hc | hc | hc <;> rw [hc]
      rw [hstep]
      exact endStep_alone hs _ _
  · obtain ⟨_, hs, _, _⟩ := step_of_handed h
    refine ⟨fun hc => ⟨_, exec_hold h, ?_⟩, fun hc => ⟨_, exec_hold h, ?_⟩, fun hc => ⟨_, exec_hold h, ?_⟩⟩
    · have hstep : holdStep n c s = endStep n .ok []
          (setChan n c { s.chan n c with state := .held, timer := none, pulse := .none, shadow := none } s) := by
        unfold holdStep
        rcases hc with hc | hc | hc <;> rw [hc]
      obtain ⟨hends, honly, hedge, hset⟩ :=
        setChan_ends hs c { s.chan n c with state := .held, timer := none, pulse := .none, shadow := none } .ok []
      have hxo : Channel.output { s.chan n c with state := .held, timer := none, pulse := .none, shadow := none } = true := rfl
      rw [hxo] at hedge hset
      rw [hstep]
      refine ⟨hends, honly, ?_, ?_⟩
      · cases ho : (s.chan n c).output <;> rw [ho] at hedge <;> exact hedge
      · rw [hset]
        cases ho : (s.chan n c).output <;> simp
    · have hstep : holdStep n c s = endStep n .ok [] s := by
        unfold holdStep
        rw [hc]
      rw [hstep]
      exact endStep_alone hs _ _
    · have hstep : holdStep n c s = endStep n .actuatorBusy [] s := by
        unfold holdStep
        rcases hc with hc | hc <;> rw [hc]
      rw [hstep]
      exact endStep_alone hs _ _
  · obtain ⟨_, hs, _, _⟩ := step_of_handed h
    obtain ⟨hends, honly, hedge, hset⟩ := setChan_ends hs c Channel.initial .ok []
    have hxo : Channel.initial.output = false := rfl
    rw [hxo] at hedge hset
    refine ⟨hends, honly, ?_, ?_⟩
    · cases ho : (s.chan n c).output <;> rw [ho] at hedge <;> exact hedge
    · exact hset.trans (if_neg fun h => by cases h.2)
  · obtain ⟨_, hs, _, _⟩ := step_of_handed h
    obtain ⟨hl, hc⟩ := liftAll_spec n s
    obtain ⟨hends, honly, hlink⟩ := endStep_afterUnits hs (by simp) hl.only .ok []
    have hst := (endStep_ends (s := liftAll n s) (n := n) (st := st) (by simpa using hs) .ok []).2.2
    have hstep : liftStep n none s = endStep n .ok [] (liftAll n s) := rfl
    rw [hstep]
    have hlst := hl.st
    generalize liftAll n s = u at *
    refine ⟨hends, honly, ?_, fun c => ?_⟩
    · rw [hst, hlst]
    · rw [State.chan, hst]
      exact hc c

/-! ### The ends of the phases (R90, R91, R94, R96) -/

/-- A channel that changes its output by itself. -/
theorem setChan_alone {s : State} {n : StationId} {c : ChannelId} {x : Channel} (ho : (s.chan n c).output = !x.output) :
    let t := setChan n c x s
    OnlyChannel n c s t ∧ t.ctx n = s.ctx n ∧ t.engine = s.engine ∧ OutputEdge n c true x.output s t ∧
    t.chan n c = if x.output = true then { x with stamp := s.now } else x := by
  obtain ⟨hset, honly, hctx, hedge⟩ := setChan_spec n c x s
  rw [ho] at hset hedge
  have hne : ((!x.output) != x.output) = true := by cases x.output <;> rfl
  rw [hne] at hedge
  refine ⟨honly, hctx, by simp, hedge, ?_⟩
  rw [hset]
  cases x.output <;> rfl

theorem output_of {x : Channel} {st : ChannelState} (h : x.state = st) : x.output = Channel.output { x with state := st } := by
  rw [← h]

theorem phaseEnds_of {s : State} {n : StationId} {c : ChannelId} {st : ChannelState} (h : (s.chan n c).timer = some 0)
    (hs : (s.chan n c).state = st) : phaseEnds s n c st = true := by
  unfold phaseEnds
  rw [hs, h]
  simp

theorem attachedPress_of {s : State} {n : StationId} {c : ChannelId} {st : InFlight} {delay w : Nat}
    (h : Flying s n st (.press c delay w)) : attachedPress s n c = true := by
  unfold attachedPress
  rw [h.1]
  dsimp only
  rw [h.2]
  exact beq_self_eq_true c

/-- A pulse's end lifts its channel. -/
theorem setChan_initial {s : State} {n : StationId} {c : ChannelId} (ho : (s.chan n c).output = true) :
    let t := setChan n c Channel.initial s
    OnlyChannel n c s t ∧ t.ctx n = s.ctx n ∧ t.engine = s.engine ∧ OutputEdge n c true false s t ∧
    t.chan n c = Channel.initial := setChan_alone (x := Channel.initial) ho

/-- The pulse of a press ends: with its step, when that is attached and in flight, or alone. -/
theorem pressWidthEnd_spec {s : State} {n : StationId} {c : ChannelId} (ho : (s.chan n c).output = true) :
    let t := pressWidthEnd n c s
    OnlyChannel n c s t ∧ OutputEdge n c true false s t ∧ t.chan n c = Channel.initial ∧
    (∀ width st delay w, (s.chan n c).pulse = .press width true → Flying s n st (.press c delay w) →
      StepEnds n st .ok (leBytes 4 (s.chan n c).stamp.toNat ++ leBytes 4 s.now.toNat) s t) ∧
    (∀ width, (s.chan n c).pulse = .press width false → t.ctx n = s.ctx n ∧ t.engine = s.engine) := by
  obtain ⟨honly, hctx, hengine, hedge, hset⟩ := setChan_initial ho
  have alone : pressWidthEnd n c s = setChan n c Channel.initial s ∨
      ∃ st, (s.ctx n).step = some st ∧ attachedPress s n c = true ∧
        pressWidthEnd n c s =
          endStep n .ok (stampBytes (s.chan n c).stamp ++ stampBytes s.now) (setChan n c Channel.initial s) := by
    unfold pressWidthEnd
    dsimp only
    split
    · split
      · rename_i ha
        have hfly := ha
        unfold attachedPress at hfly
        split at hfly
        · rename_i st hst
          exact .inr ⟨st, (flyingStep_some.mp hst).2.1, ha, rfl⟩
        · cases hfly
      · exact .inl rfl
    all_goals exact .inl rfl
  dsimp only
  refine ⟨?_, ?_, ?_, fun width st delay w hp hf => ?_, fun width hp => ?_⟩
  · rcases alone with h | ⟨st, hs, _, h⟩ <;> rw [h]
    · exact honly
    · exact ((channelSet_setChan hs c Channel.initial).ends ⟨rfl, rfl, rfl⟩ _ _).2.1
  · rcases alone with h | ⟨st, hs, _, h⟩ <;> rw [h]
    · exact hedge
    · exact outputEdge_of_units hedge ((channelSet_setChan hs c Channel.initial).ends ⟨rfl, rfl, rfl⟩ _ _).2.2.2
  · rcases alone with h | ⟨st, hs, _, h⟩ <;> rw [h]
    · exact hset
    · rw [((channelSet_setChan hs c Channel.initial).ends ⟨rfl, rfl, rfl⟩ _ _).2.2.1, hset]
  · have hend : pressWidthEnd n c s =
        endStep n .ok (stampBytes (s.chan n c).stamp ++ stampBytes s.now) (setChan n c Channel.initial s) := by
      unfold pressWidthEnd
      dsimp only
      rw [hp]
      exact if_pos (attachedPress_of hf)
    rw [hend]
    exact ((channelSet_setChan (step_of_flying hf).1 c Channel.initial).ends ⟨rfl, rfl, rfl⟩ _ _).1
  · have hend : pressWidthEnd n c s = setChan n c Channel.initial s := by
      unfold pressWidthEnd
      dsimp only
      rw [hp]
    rw [hend]
    exact ⟨hctx, hengine⟩

/-- Settles O47: the phase that has ended, by its state. -/
theorem channelPhasesEndAsTimed : Obligations.ChannelPhasesEndAsTimed := by
  intro s n c ht
  refine ⟨fun width att hs hp => ⟨_, congrArg Host.Outcome.next (if_pos (phaseEnds_of ht hs)), ?_⟩,
    fun hs => ⟨_, congrArg Host.Outcome.next (if_pos (phaseEnds_of ht hs)), pressWidthEnd_spec (output_of hs)⟩,
    fun period width left hs hp => ⟨_, congrArg Host.Outcome.next (if_pos (phaseEnds_of ht hs)), ?_⟩,
    fun hs => ⟨_, congrArg Host.Outcome.next (if_pos (phaseEnds_of ht hs)), ?_⟩⟩
  · have hend : delayEnd n c s = setChan n c { s.chan n c with state := .asserted, timer := some width } s := by
      unfold delayEnd
      rw [hp]
    rw [hend]
    exact setChan_alone (output_of hs)
  · have hend : tapOnEnd n c s = setChan n c { s.chan n c with state := .tapOff, timer := some (period - width) } s := by
      unfold tapOnEnd
      rw [hp]
    rw [hend]
    exact setChan_alone (output_of hs)
  · have hout : (s.chan n c).output = false := output_of hs
    obtain ⟨hset, honly, hctx, hedge⟩ := setChan_spec n c (s.chan n c).boundary s
    rw [hout] at hset hedge
    refine ⟨honly, hctx, by simp, fun sh hsh => ?_, fun period width hsh hp => ?_, fun period width k hsh hp => ?_,
      fun period width hsh hp => ?_⟩
    all_goals
      unfold Channel.boundary at hset hedge ⊢
      rw [hsh] at hset hedge ⊢
    · exact ⟨hedge, hset⟩
    all_goals
      rw [hp] at hset hedge ⊢
      exact ⟨hedge, hset⟩

end Sys2Proof.Proofs
end

section
/-! PROOFS. The supply's ramp and the input filters (R56 to R58, R108 to R114). -/

namespace Sys2Proof.Proofs

open Sys2Proof.Machine Sys2Proof.Laws

/-! ### The supply state (R108, R114) -/

/-- A supply that enters a state by a change: the state, the loss filter, and the part-half write that shows it. -/
theorem setSupply_change {s : State} {n : StationId} {x : SupplyState} (h : (s.st n).power.supply ≠ x) :
    ∃ u, setSupply n x s = queuePartHalf n u ∧ OnlyStation n s u ∧
      u.st n = { s.st n with power := { (s.st n).power with
        supply := x,
        loss := if x = .on ∧ (s.st n).power.good.raw = false then some (250 * (s.ctx n).settings.tripFilter) else none,
        goodRise := false, tripRise := (s.st n).power.tripRise && x == .on } } := by
  refine ⟨_, if_neg h, onlyStation_setSt _ _ _, ?_⟩
  have hm : micros (10 * (s.ctx n).settings.tripFilter) = 250 * (s.ctx n).settings.tripFilter := by
    unfold micros Config.periodsPerMicro
    omega
  rw [State.setPower, setSt_st_self, hm]

/-- Station `n` alone has changed, and not the engine, the time, Part Control or the notices. -/
theorem onlyStation_fields {n : StationId} {s u : State} (h : OnlyStation n s u) :
    u.engine = s.engine ∧ u.ctl = s.ctl ∧ u.time = s.time ∧ u.notice = s.notice ∧ u.units = s.units ∧ u.now = s.now := by
  obtain ⟨hf, _⟩ := h
  exact ⟨by rw [hf], by rw [hf], by rw [hf], by rw [hf], by rw [hf], by rw [State.now, hf]; rfl⟩

/-- A step that ends with a change of its supply. -/
theorem endStep_setSupply {s : State} {n : StationId} {st : InFlight} {x : SupplyState} (hs : (s.ctx n).step = some st)
    (h : (s.st n).power.supply ≠ x) (code : Code) (result : List Byte) :
    let t := endStep n code result (setSupply n x s)
    OnlyStationShared n s t ∧ StepEndsAmid n st code result s t ∧ (t.st n).power.supply = x ∧
    PartHalfReports n (fun bytes => bytes[11]? = some (BitVec.ofNat 8 x.code)) t ∧
    (t.st n).power.loss =
      if x = .on ∧ (s.st n).power.good.raw = false then some (250 * (s.ctx n).settings.tripFilter) else none := by
  obtain ⟨u, hu, honly, hst⟩ := setSupply_change h
  obtain ⟨hengine, hctl, htime, hnotice, hunits, hnow⟩ := onlyStation_fields honly
  have hctx : u.ctx n = s.ctx n := by rw [State.ctx, hst]
  have hpower : ((endStep n code result (queuePartHalf n u)).st n).power = (u.st n).power := by
    have hq : ((queuePartHalf n u).ctx n).step = some st := by rw [queuePartHalf_ctx, hctx, hs]
    rw [(endStep_ends hq code result).2.2, queuePartHalf_st]
  dsimp only
  rw [hu]
  refine ⟨onlyStationShared_trans (onlyStationShared_trans (onlyStationShared_of (onlyStationUnits_of honly))
      (queuePartHalf_shared n n u)) (endStep_shared _ _),
    stepEndsAmid_of hs (by rw [queuePartHalf_ctx, hctx]) (by rw [queuePartHalf_now, hnow])
      (by rw [queuePartHalf_ownBusy, hengine]) _ _, by rw [hpower, hst], ?_, by rw [hpower, hst]⟩
  refine reports_endStep ?_ _ _
  rw [partHalfBytes_supply, hst]

/-- Settles O49: the supply's change, then the step's end. -/
theorem rampEndsOnOrOff : Obligations.RampEndsOnOrOff := by
  intro s n st hr hs
  refine ⟨fun hg => ⟨_, congrArg Host.Outcome.next (if_pos (by simp [goodRiseDue, hg, hr])), ?_⟩,
    fun hd => ⟨_, congrArg Host.Outcome.next (if_pos (by simp [noSupplyGoodDue, hr, State.expired, hd])), ?_⟩⟩
  · obtain ⟨h1, h2, h3, h4, h5⟩ := endStep_setSupply (x := .on) hs (by rw [hr]; decide) .ok [BitVec.ofNat 8 SupplyState.on.code]
    refine ⟨h1, h2, h3, h4, ?_⟩
    rw [h5]
    cases (s.st n).power.good.raw <;> simp
  · obtain ⟨h1, h2, h3, h4, _⟩ := endStep_setSupply (x := .off) hs (by rw [hr]; decide) .noSupplyGood
      [BitVec.ofNat 8 SupplyState.off.code]
    refine ⟨h1, h2, h3, ?_, h4⟩
    unfold State.supplyEnable
    rw [h3]

/-! ### The input filters (R56 to R58) -/

/-- Replacing one filter of a station. -/
theorem setFilter_filter (x : Station) (p q : FilteredPin) (f : Filter) :
    (x.setFilter p f).filter q = if q = p then f else x.filter q := by
  cases p <;> cases q <;> rfl

theorem setFilter_frame (x : Station) (p : FilteredPin) (f : Filter) :
    (x.setFilter p f).ctx = x.ctx ∧ (x.setFilter p f).chans = x.chans ∧ (x.setFilter p f).link = x.link ∧
    (x.setFilter p f).power = { x.power with good := (x.setFilter p f).power.good, trip := (x.setFilter p f).power.trip } := by
  cases p <;> exact ⟨rfl, rfl, rfl, rfl⟩

/-- The loss filter's watch changes its candidate alone. -/
theorem watchGood_eq (w : Power) (high : Bool) (periods : Nat) :
    w.watchGood high periods = { w with
      loss := if w.supply = .on then (if high then none else some (w.loss.getD periods)) else w.loss } := by
  unfold Power.watchGood
  by_cases h : w.supply = .on
  · rw [if_pos h, if_pos h]
    cases high <;> cases w.loss <;> rfl
  · rw [if_neg h, if_neg h]

/-- A raw level of a station's filtered input. -/
theorem stationInput_spec (n : StationId) (p : FilteredPin) (high : Bool) (s : State) :
    let t := stationInput n p high s
    let w := (s.st n).power
    OnlyStation n s t ∧ t.ctx n = s.ctx n ∧ (t.st n).chans = (s.st n).chans ∧ (t.st n).link = (s.st n).link ∧
    (∀ q, q ≠ p → (t.st n).filter q = (s.st n).filter q) ∧
    (t.st n).filter p = filterLevel ((s.st n).filter p) s.time.firstPeriod high (filterTime (s.ctx n).settings p) ∧
    (t.st n).power = { w with
      good := (t.st n).power.good, trip := (t.st n).power.trip,
      loss := if p = .supplyGood ∧ w.supply = .on then
          (if high then none else some (w.loss.getD (250 * (s.ctx n).settings.tripFilter)))
        else w.loss } := by
  dsimp only
  have hf := setFilter_filter (s.st n) p
  have hframe := setFilter_frame (s.st n) p
  unfold stationInput
  dsimp only
  rw [sense_eq, filterPeriods_eq]
  generalize filterLevel ((s.st n).filter p) s.time.firstPeriod high (filterTime (s.st n).ctx.settings p) = f
  obtain ⟨hctx, hchans, hlink, hpower⟩ := hframe f
  refine ⟨onlyStation_setSt _ _ _, ?_⟩
  rw [State.ctx, setSt_st_self]
  have hm : Settings.filterPeriods (s.st n).ctx.settings .trip = 250 * (s.ctx n).settings.tripFilter := filterPeriods_eq _ .trip
  cases p with
  | supplyGood =>
    rw [watchGood_eq, hm]
    refine ⟨hctx, hchans, hlink, fun q hq => ?_, hf .supplyGood f, ?_⟩
    · have := hf q f
      rw [if_neg hq] at this
      rw [← this]
      cases q <;> rfl
    · by_cases hon : (s.st n).power.supply = .on
      · simp [Station.setFilter, hon]
      · simp [Station.setFilter, hon]
  | sense0 | sense1 | trip =>
    refine ⟨hctx, hchans, hlink, fun q hq => ?_, ?_, ?_⟩
    · rw [hf, if_neg hq]
    · rw [hf, if_pos rfl]
    · simp [Station.setFilter]

/-- The other parts' pull of a line. -/
theorem lineInput_spec (l : Line) (high : Bool) (s : State) :
    let t := lineInput l high s
    t = { s with lineA := t.lineA, lineB := t.lineB } ∧ (∀ m, m ≠ l → t.line m = s.line m) ∧
    t.line l = { s.line l with
      others := high, filter := filterLevel (s.line l).filter s.time.firstPeriod (t.line l).pin 125 } := by
  dsimp only
  unfold lineInput
  dsimp only
  refine ⟨by cases l <;> rfl, fun m hm => ?_, ?_⟩
  · rw [line_setLine, if_neg hm]
  · rw [line_setLine, if_pos rfl, sense_eq]
    rfl

theorem onlyStation_setPower (s : State) (n : StationId) (x : Power) : OnlyStation n s (s.setPower n x) := onlyStation_setSt _ _ _

theorem setPower_st_self (s : State) (n : StationId) (x : Power) : (s.setPower n x).st n = { s.st n with power := x } :=
  setSt_st_self _ _ _

/-- The consumers of an accepted edge of a station's input. -/
theorem stationEdge_spec (n : StationId) (p : FilteredPin) (high : Bool) (s : State) :
    let t := stationEdge n p high s
    let w := (s.st n).power
    OnlyStationUnits n s t ∧
    t.st n = { s.st n with power := { w with
      goodRise := w.goodRise || (p == .supplyGood && high && w.supply == .ramping),
      tripRise := w.tripRise || (p == .trip && high && (w.supply == .ramping || w.supply == .on)) } } ∧
    (p = .sense0 → UnitsSee n .sense0 high s t) ∧ (p = .sense1 → UnitsSee n .sense1 high s t) ∧
    (p = .supplyGood → UnitsSee n .supplyGood high s t) ∧ (p = .trip → t.units = s.units) := by
  dsimp only
  unfold stationEdge
  cases p with
  | sense0 =>
    dsimp only
    refine ⟨⟨rfl, fun _ _ => rfl⟩, ?_, fun _ => emitEdge_unitsSee _ _ _ _, nofun, nofun, nofun⟩
    rw [emitEdge_st]
    show s.st n = { s.st n with power := { (s.st n).power with
      goodRise := (s.st n).power.goodRise || false, tripRise := (s.st n).power.tripRise || false } }
    rw [Bool.or_false, Bool.or_false]
  | sense1 =>
    dsimp only
    refine ⟨⟨rfl, fun _ _ => rfl⟩, ?_, nofun, fun _ => emitEdge_unitsSee _ _ _ _, nofun, nofun⟩
    rw [emitEdge_st]
    show s.st n = { s.st n with power := { (s.st n).power with
      goodRise := (s.st n).power.goodRise || false, tripRise := (s.st n).power.tripRise || false } }
    rw [Bool.or_false, Bool.or_false]
  | supplyGood =>
    refine ⟨⟨rfl, fun m hm => ?_⟩, ?_, nofun, nofun, fun _ => emitEdge_unitsSee _ _ _ _, nofun⟩
    · exact (onlyStation_setPower s n _).2 m hm
    · refine (setPower_st_self s n _).trans ?_
      show _ = { s.st n with power := { (s.st n).power with
        goodRise := (s.st n).power.goodRise || (true && high && (s.st n).power.supply == SupplyState.ramping),
        tripRise := (s.st n).power.tripRise || false } }
      rw [Bool.or_false, Bool.true_and]
  | trip =>
    refine ⟨⟨rfl, fun m hm => ?_⟩, ?_, nofun, nofun, nofun, fun _ => rfl⟩
    · exact (onlyStation_setPower s n _).2 m hm
    · have htrips : (s.st n).power.supply.trips = ((s.st n).power.supply == .ramping || (s.st n).power.supply == .on) := by
        cases (s.st n).power.supply <;> rfl
      refine (setPower_st_self s n _).trans ?_
      show _ = { s.st n with power := { (s.st n).power with
        goodRise := (s.st n).power.goodRise || false,
        tripRise := (s.st n).power.tripRise ||
          (true && high && ((s.st n).power.supply == SupplyState.ramping || (s.st n).power.supply == SupplyState.on)) } }
      rw [Bool.or_false, Bool.true_and, htrips]

/-- Settles O52: the raw levels, then the acceptances. -/
theorem inputsPassTheirFilters : Obligations.InputsPassTheirFilters := by
  refine ⟨fun s n high => ⟨_, rfl, onlyStation_setSt _ _ _, setSt_st_self _ _ _⟩,
    fun s n p high => ⟨_, rfl, stationInput_spec n p high s⟩, fun s l high => ⟨_, rfl, lineInput_spec l high s⟩,
    fun s n p hc => ⟨_, congrArg Host.Outcome.next (if_pos ?_), ?_⟩, fun s l hc => ⟨_, congrArg Host.Outcome.next (if_pos ?_), ?_⟩⟩
  · simp [acceptanceDue, State.filter, hc]
  · unfold acceptFilter
    dsimp only
    have hg : ((s.filter (.station n p)).accept (s.filterPeriods (.station n p))) =
        filterAccepted ((s.st n).filter p) (filterTime (s.ctx n).settings p) := by
      rw [accept_eq, ← filterPeriods_eq]
      rfl
    rw [hg]
    generalize hgf : filterAccepted ((s.st n).filter p) (filterTime (s.ctx n).settings p) = g
    have hacc : g.accepted = !((s.st n).filter p).accepted := by rw [← hgf]; rfl
    obtain ⟨honly, hst, h0, h1, h2, h3⟩ := stationEdge_spec n p g.accepted (s.setSt n ((s.st n).setFilter p g))
    rw [setSt_st_self] at hst
    obtain ⟨hctx, hchans, hlink, hpower⟩ := setFilter_frame (s.st n) p g
    have hfilter : ∀ q, ((stationEdge n p g.accepted (s.setSt n ((s.st n).setFilter p g))).st n).filter q =
        ((s.st n).setFilter p g).filter q := by
      intro q
      rw [hst]
      cases q <;> rfl
    refine ⟨onlyStationUnits_trans (onlyStationUnits_of (onlyStation_setSt _ _ _)) honly, by rw [State.ctx, hst]; exact hctx,
      by rw [hst]; exact hchans, by rw [hst]; exact hlink, fun q hq => ?_, ?_, ?_, ?_, ?_, ?_, ?_⟩
    · rw [hfilter, setFilter_filter, if_neg hq]
    · rw [hfilter, setFilter_filter, if_pos rfl]
    · rw [hst, ← hacc]
      dsimp only
      rw [hpower]
    · exact fun hp => hacc ▸ h0 hp
    · exact fun hp => hacc ▸ h1 hp
    · exact fun hp => hacc ▸ h2 hp
    · exact h3
  · simp [acceptanceDue, State.filter, hc]
  · unfold acceptFilter
    dsimp only
    refine ⟨by cases l <;> rfl, fun m hm => ?_, ?_⟩
    · rw [line_setLine, if_neg hm]
    · rw [line_setLine, if_pos rfl, accept_eq]
      unfold State.filter State.filterPeriods filterAccepted
      simp
      rfl

end Sys2Proof.Proofs
end

section
/-! PROOFS. The measurement unit pool: binding, collecting, edges, windows and gates (R119 to R139). -/

namespace Sys2Proof.Proofs

open Sys2Proof.Machine Sys2Proof.Laws

/-! ### Slots and free units (R121, R132) -/

theorem slotUnit_isSome_of {s : State} {n : StationId} {slot : SlotId} {u : UnitId}
    (h : (s.unit u).binding = some (n, slot)) : (s.slotUnit n slot).isSome = true := by
  unfold State.slotUnit
  rw [List.find?_isSome]
  exact ⟨u, List.mem_finRange u, by simp [h]⟩

theorem slotUnit_none_of {s : State} {n : StationId} {slot : SlotId} (h : ∀ u, (s.unit u).binding ≠ some (n, slot)) :
    s.slotUnit n slot = none :=
  Option.isNone_iff_eq_none.mp ((slotUnit_isNone_iff s n slot).mpr h)

/-- The lowest-numbered FREE unit. -/
theorem freeUnit_some_of {s : State} {u : UnitId} (hu : (s.unit u).state = .free)
    (hlow : ∀ v, v < u → (s.unit v).state ≠ .free) : s.freeUnit = some u := by
  unfold State.freeUnit
  rw [List.find?_eq_some_iff_getElem]
  refine ⟨by simp [hu], u.1, by simp, by simp, fun j hj => ?_⟩
  have hne := hlow ⟨j, by omega⟩ hj
  simp [hne]

theorem freeUnit_none_of {s : State} (h : ∀ u, (s.unit u).state ≠ .free) : s.freeUnit = none := by
  unfold State.freeUnit
  rw [List.find?_eq_none]
  intro u _
  simp [h u]

/-! ### A unit that changes while a step ends -/

/-- The state of a step that ends after one unit has changed. -/
theorem endStep_setUnit {s : State} {n : StationId} {st : InFlight} (hs : (s.ctx n).step = some st) (u : UnitId) (x : MeasUnit)
    (code : Code) (result : List Byte) :
    let t := endStep n code result (s.setUnit u x)
    StepEnds n st code result s t ∧ OnlyStationEngineUnits n s t ∧ t.st n = { s.st n with ctx := t.ctx n } ∧
    t.unit u = x ∧ ∀ v, v ≠ u → t.unit v = s.unit v := by
  obtain ⟨hends, honly, hst⟩ := endStep_after (s := s) (t := s.setUnit u x) hs rfl rfl rfl rfl code result
  have hunits : ∀ v, (endStep n code result (s.setUnit u x)).unit v = (s.setUnit u x).unit v := fun v => by
    unfold State.unit
    rw [endStep_units]
  refine ⟨hends, onlyStationEngineUnits_of (t := s.setUnit u x) ⟨rfl, fun _ _ => rfl⟩ honly, hst, ?_, fun v hv => ?_⟩
  · rw [hunits, unit_setUnit, if_pos rfl]
  · rw [hunits, unit_setUnit, if_neg hv]

theorem setUnit_setUnit (s : State) (u : UnitId) (x y : MeasUnit) : (s.setUnit u x).setUnit u y = s.setUnit u y := by
  unfold State.setUnit
  dsimp only
  rw [Vector.set_set]

/-! ### The arbiter (R134, R137) -/

/-- Where no unit is FREE the arbiter grants nothing. -/
theorem foldl_arbitrate_of_taken {s : State} (h : ∀ v, (s.unit v).state ≠ .free) (l : List UnitId) :
    l.foldl arbitrateUnit s = s := by
  induction l with
  | nil => rfl
  | cons v l ih =>
    have hv : arbitrateUnit s v = s := if_neg fun hc => h v hc.2
    rw [List.foldl_cons, hv, ih]

theorem begin_state (x : MeasUnit) (stamp : Word) : (x.begin stamp).state = .running := rfl

theorem bindUnit_state_ne_free (u : UnitId) (n : StationId) (slot : SlotId) (arm : ArmSettings) (s : State) :
    ((bindUnit u n slot arm s).unit u).state ≠ .free := by
  unfold bindUnit
  rw [unit_setUnit, if_pos rfl]
  split
  · rw [begin_state]
    nofun
  · exact nofun

theorem bindUnit_unit_ne {u v : UnitId} (h : v ≠ u) (n : StationId) (slot : SlotId) (arm : ArmSettings) (s : State) :
    (bindUnit u n slot arm s).unit v = s.unit v := by
  unfold bindUnit
  rw [unit_setUnit, if_neg h]

theorem endStep_unit (n : StationId) (code : Code) (result : List Byte) (s : State) (v : UnitId) :
    (endStep n code result s).unit v = s.unit v := by
  unfold State.unit
  rw [endStep_units]

/-- The one FREE unit goes to the head of the unit wait list. -/
theorem arbitrate_grants {s : State} {u : UnitId} {e : WaitEntry} {rest : List WaitEntry} (ha : s.ctl.state = .active)
    (hw : s.waitList = e :: rest) (hu : (s.unit u).state = .free) (hv : ∀ v, v ≠ u → (s.unit v).state ≠ .free) :
    arbitrate s = grantUnit u e { s with waitList := rest } := by
  have hgrant : arbitrateUnit s u = grantUnit u e { s with waitList := rest } := by
    unfold arbitrateUnit
    rw [if_pos ⟨by simp [State.active, ha], hu⟩, hw]
  have htaken : ∀ v, ((grantUnit u e { s with waitList := rest }).unit v).state ≠ .free := by
    intro v
    unfold grantUnit
    rw [endStep_unit]
    by_cases hvu : v = u
    · rw [hvu]
      exact bindUnit_state_ne_free u _ _ _ _
    · rw [bindUnit_unit_ne hvu]
      exact hv v hvu
  have hfold : ∀ l : List UnitId, u ∈ l → l.foldl arbitrateUnit s = grantUnit u e { s with waitList := rest } := by
    intro l
    induction l with
    | nil => exact nofun
    | cons v l ih =>
      intro hmem
      by_cases hvu : v = u
      · rw [hvu, List.foldl_cons, hgrant, foldl_arbitrate_of_taken htaken]
      · have hsame : arbitrateUnit s v = s := if_neg fun hc => hv v hvu hc.2
        rw [List.foldl_cons, hsame]
        exact ih ((List.mem_cons.mp hmem).resolve_left (Ne.symm hvu))
  exact hfold _ (List.mem_finRange u)

/-! ### ARM (R132, R133) -/

theorem exec_arm {s : State} {n : StationId} {st : InFlight} {slot : SlotId} {a : ArmSettings} (h : Handed s n st (.arm slot a)) :
    exec (.arm n) s = .next (armStep n st slot a s) := by
  show execArm n s = _
  unfold execArm
  rw [h.1]
  dsimp only
  rw [h.2]

/-- The unit that an ARM binds: its binding, its settings, its observed levels and its timers. -/
theorem boundUnit_spec (s : State) (n : StationId) (slot : SlotId) (a : ArmSettings) :
    let x := if a.start = .immediate then (boundUnit s n slot a).begin s.now else boundUnit s n slot a
    x.binding = some (n, slot) ∧ x.arm = a ∧ x.inbox = [] ∧ x.obsX = s.signalLevel n a.x ∧ x.obsY = s.signalLevel n a.y ∧
    (a.start ≠ .immediate → x.state = .armed ∧ x.window = some (a.window + 1)) ∧
    (a.start = .immediate → x.state = .running ∧ x.startStamp = s.now ∧
      (a.kind = .frequency → x.window = none ∧ x.gate = some (25 * a.gate)) ∧
      (a.kind ≠ .frequency → x.window = some (a.window + 1) ∧ x.gate = none)) := by
  by_cases hi : a.start = .immediate
  · simp only [if_pos hi]
    refine ⟨rfl, rfl, rfl, rfl, rfl, fun h => absurd hi h, fun _ => ⟨rfl, rfl, fun hk => ?_, fun hk => ?_⟩⟩
    · refine ⟨if_pos hk, (if_pos hk).trans ?_⟩
      unfold micros Config.periodsPerMicro
      rw [Nat.mul_comm]
      rfl
    · exact ⟨if_neg hk, if_neg hk⟩
  · simp only [if_neg hi]
    exact ⟨rfl, rfl, rfl, rfl, rfl, fun _ => ⟨rfl, rfl⟩, fun h => absurd h hi⟩

/-- Settles O53: the three answers of ARM. -/
theorem armBindsTheLowestFreeUnitOrWaits : Obligations.ArmBindsTheLowestFreeUnitOrWaits := by
  intro s n st slot a h
  obtain ⟨_, hs, _, hop⟩ := step_of_handed h
  refine ⟨fun u hu => ⟨_, exec_arm h, ?_⟩, fun hno => ⟨fun u hu hlow => ⟨_, exec_arm h, ?_⟩, fun hfull => ⟨_, exec_arm h, ?_⟩⟩⟩
  · unfold armStep
    rw [if_pos (slotUnit_isSome_of hu)]
    exact endStep_alone hs _ _
  · have hstep : armStep n st slot a s = endStep n .ok (armResult u 0) (bindUnit u n slot a s) := by
      unfold armStep
      rw [slotUnit_none_of hno, freeUnit_some_of hu hlow]
      rfl
    rw [hstep]
    obtain ⟨hends, honly, hst, hunit, hother⟩ := endStep_setUnit hs u
      (if a.start = .immediate then (boundUnit s n slot a).begin s.now else boundUnit s n slot a) .ok (armResult u 0)
    unfold bindUnit
    refine ⟨hends, honly, hst, hother, ?_⟩
    rw [hunit]
    exact boundUnit_spec s n slot a
  · have hstep : armStep n st slot a s =
        { (markWaiting n st s).setCtx n { (markWaiting n st s).ctx n with state := .waitingUnit } with
          waitList := s.waitList ++ [{ station := n, slot := slot, arm := a, start := st.start }] } := by
      unfold armStep
      rw [slotUnit_none_of hno, freeUnit_none_of hfull]
      rfl
    rw [hstep]
    refine ⟨rfl, ?_, fun m hm => ?_⟩
    · refine (setCtx_ctx_self _ _ _).trans ?_
      unfold markWaiting
      rw [setCtx_ctx_self, deadlineTicks_eq hop]
      rfl
    · refine (onlyStation_setCtx (markWaiting n st s) n _).2 m hm |>.trans ?_
      exact (onlyStation_setCtx s n _).2 m hm

/-! ### The end of a COLLECT (R138, R139) -/

theorem exec_collect {s : State} {n : StationId} {st : InFlight} {slot : SlotId} (h : Handed s n st (.collect slot)) :
    exec (.collect n) s = .next (collectStep n st slot s) := by
  show execCollect n s = _
  unfold execCollect
  rw [h.1]
  dsimp only
  rw [h.2]

theorem collectCode_eq (x : MeasUnit) : collectCode x = if x.completion = .complete then .ok else .noEdge := by
  unfold collectCode
  cases x.completion <;> rfl

/-- A COLLECT that takes a result while nothing waits for a unit. -/
theorem collectUnit_ends {s : State} {n : StationId} {st : InFlight} (hs : (s.ctx n).step = some st) (u : UnitId)
    (hw : s.waitList = []) :
    let t := collectUnit n u s
    StepEnds n st (collectCode (s.unit u)) (collectResult u (s.unit u)) s t ∧ OnlyStationEngineUnits n s t ∧
    t.st n = { s.st n with ctx := t.ctx n } ∧ t.unit u = MeasUnit.initial ∧ ∀ v, v ≠ u → t.unit v = s.unit v := by
  have hnil : (endStep n (collectCode (s.unit u)) (collectResult u (s.unit u)) (freeOneUnit u s)).waitList = [] := by
    rw [endStep_waitList]
    exact hw
  unfold collectUnit
  rw [arbitrate_nil hnil]
  exact endStep_setUnit hs u _ _ _

/-! ### What a station has offered stays offered -/

/-- A request that is neither a part-half write nor a fetch read waits on, whatever the stations and shared blocks do. -/
theorem requestWaits_kept {q : Request} (hq : ∀ n, q.kind ≠ .partHalf n ∧ q.kind ≠ .fetch n) :
    KeptByWork (RequestWaits q) where
  contents h _ _ _ _ := h
  line {_ l _} h _ := by cases l <;> exact h
  offer h _ := requestWaits_offer h
  partHalf h n _ := requestWaits_queuePartHalf (hq n).1 h
  withdraw h n _ := h.imp id fun hr => List.mem_filter.mpr ⟨hr, by simp [(hq n).2]⟩
  attention h n _ := by
    unfold RequestWaits
    rw [setAttention_engine]
    exact h
  kick h := requestWaits_noticeKick h

/-- An outcome write stays offered through work that leaves its station's context alone. -/
theorem outcomeOffered_kept {n : StationId} {bytes : List Byte} {s t : State} (h : OutcomeOffered n bytes s)
    (hc : t.ctx n = s.ctx n) (hs : t.ctl = s.ctl) (ht : ∀ {P : State → Prop}, KeptByWork P → P s → P t) :
    OutcomeOffered n bytes t := by
  intro htakes
  have hw : outcomeWrite t n bytes = outcomeWrite s n bytes := by
    unfold outcomeWrite
    rw [hc]
  have hs' : TakesWrites s := by
    unfold TakesWrites at htakes ⊢
    rw [← hs]
    exact htakes
  unfold OutcomeQueued
  rw [hc, hw]
  exact (h hs').imp id (ht (requestWaits_kept fun m => ⟨nofun, nofun⟩))

/-- A step that has ended stays so. -/
theorem stepEndsAmid_kept {s t u : State} {n : StationId} {st : InFlight} {code : Code} {result : List Byte}
    (h : StepEndsAmid n st code result s t) (hc : u.ctx n = t.ctx n) (hs : u.ctl = t.ctl)
    (hu : ∀ {P : State → Prop}, KeptByWork P → P t → P u) : StepEndsAmid n st code result s u :=
  ⟨by rw [hc, h.1], outcomeOffered_kept h.2 hc hs hu⟩

/-- A COLLECT that takes a result while an ARM waits: the unit goes to it. -/
theorem collectUnit_grants {s : State} {n : StationId} {st st' : InFlight} {w : WaitEntry} {rest : List WaitEntry}
    (hs : (s.ctx n).step = some st) (u : UnitId) (hw : s.waitList = w :: rest) (ha : s.ctl.state = .active)
    (hv : ∀ v, (s.unit v).state ≠ .free) (hne : w.station ≠ n) (hst' : (s.ctx w.station).step = some st') :
    let t := collectUnit n u s
    StepEndsAmid n st (collectCode (s.unit u)) (collectResult u (s.unit u)) s t ∧ t.waitList = rest ∧
    (t.unit u).binding = some (w.station, w.slot) ∧ (t.unit u).arm = w.arm ∧
    StepEndsAmid w.station st' .ok (armResult u (s.now - w.start)) s t := by
  unfold collectUnit
  generalize hcode : collectCode (s.unit u) = code
  generalize hresult : collectResult u (s.unit u) = result
  generalize ht : endStep n code result (freeOneUnit u s) = t
  have hamid : StepEndsAmid n st code result s t := by
    rw [← ht]
    exact stepEndsAmid_of (u := freeOneUnit u s) hs rfl rfl rfl code result
  have hunit : ∀ v, t.unit v = if v = u then MeasUnit.initial else s.unit v := fun v => by
    rw [← ht, endStep_unit]
    exact unit_setUnit ..
  have hwait : t.waitList = w :: rest := by
    rw [← ht, endStep_waitList]
    exact hw
  have hgrant : arbitrate t = grantUnit u w { t with waitList := rest } := by
    refine arbitrate_grants ?_ hwait ?_ fun v hvu => ?_
    · rw [← ht, endStep_ctl]
      exact ha
    · rw [hunit, if_pos rfl]
      rfl
    · rw [hunit, if_neg hvu]
      exact hv v
  have hother : t.st w.station = s.st w.station := by
    rw [← ht, endStep_st_ne _ hne]
    rfl
  have hbusy : t.engine.ownBusy w.station = s.engine.ownBusy w.station := by
    rw [← ht, endStep_ownBusy _ hne]
    rfl
  have hnow : t.now = s.now := by
    rw [← ht]
    unfold State.now
    rw [endStep_time]
    rfl
  rw [hgrant]
  unfold grantUnit
  have hbound := boundUnit_spec { t with waitList := rest } w.station w.slot w.arm
  refine ⟨stepEndsAmid_kept hamid ?_ ?_ fun K h => K.endStep (K.setUnit (K.waitList h)), ?_, ?_, ?_, ?_⟩
  · exact congrArg Station.ctx (endStep_st_ne _ (Ne.symm hne) _ _)
  · rw [endStep_ctl]
    rfl
  · rw [endStep_waitList]
    rfl
  · rw [endStep_unit]
    unfold bindUnit
    rw [unit_setUnit, if_pos rfl, hbound.1]
  · rw [endStep_unit]
    unfold bindUnit
    rw [unit_setUnit, if_pos rfl, hbound.2.1]
  · have hresult' : armResult u (State.now { t with waitList := rest } - w.start) = armResult u (s.now - w.start) := by
      rw [← hnow]
      rfl
    rw [hresult']
    exact stepEndsAmid_of (u := bindUnit u w.station w.slot w.arm { t with waitList := rest }) hst' (congrArg Station.ctx hother) hnow hbusy _ _

/-- Settles O54: a COLLECT ends with its result, and the unit it frees goes to the head of the wait list. -/
theorem collectTakesTheResultAndFreesTheUnit : Obligations.CollectTakesTheResultAndFreesTheUnit := by
  intro s n st slot h
  obtain ⟨_, hs, _, hop⟩ := step_of_handed h
  refine ⟨fun hno => ⟨_, exec_collect h, ?_⟩, fun u hu => ⟨fun hnd => ⟨_, exec_collect h, ?_⟩, ?_⟩⟩
  · unfold collectStep
    rw [slotUnit_none_of hno]
    exact endStep_alone hs _ _
  · have hstep : collectStep n st slot s = markWaiting n st s := by
      unfold collectStep
      rw [hu]
      exact if_neg hnd
    rw [hstep]
    refine ⟨onlyStation_setCtx _ _ _, (setSt_st_self _ _ _).trans ?_⟩
    rw [deadlineTicks_eq hop]
    rfl
  · have hdone (hd : (s.unit u).state = .done) : collectStep n st slot s = collectUnit n u s := by
      unfold collectStep
      rw [hu]
      exact if_pos hd
    refine ⟨fun hd hw => ⟨_, exec_collect h, ?_⟩, fun w rest st' hd hw ha hv hne hst' => ⟨_, exec_collect h, ?_⟩⟩
    · rw [hdone hd, ← collectCode_eq]
      exact collectUnit_ends hs u hw
    · rw [hdone hd, ← collectCode_eq]
      exact collectUnit_grants hs u hw ha hv hne hst'

/-! ### The end of a measurement (R126, R131, R139) -/

/-- A unit that has completed its measurement. -/
def completed (x : MeasUnit) (c : Completion) : MeasUnit :=
  { x with state := .done, window := none, gate := none, inbox := [], completion := c }

theorem unitDone_alone {s : State} {u : UnitId} {x : MeasUnit} (hx : x.binding = (s.unit u).binding)
    (h : s.collector u = none) (c : Completion) : unitDone u c x s = s.setUnit u (completed x c) := by
  have hcoll : (s.setUnit u (completed x c)).collector u = none := by
    have hunit : ((s.setUnit u (completed x c)).unit u).binding = (s.unit u).binding := by
      rw [unit_setUnit, if_pos rfl]
      exact hx
    unfold State.collector at h ⊢
    rw [hunit]
    exact h
  unfold unitDone
  dsimp only
  unfold completed at hcoll ⊢
  rw [hcoll]

/-- A COLLECT that waits for the unit ends with the result, and the unit is FREE. -/
theorem unitDone_collected {s : State} {u : UnitId} {x : MeasUnit} {n : StationId} {st : InFlight} {slot : SlotId}
    (hx : x.binding = some (n, slot)) (h : Flying s n st (.collect slot)) (hw : s.waitList = []) (c : Completion) :
    let t := unitDone u c x s
    StepEnds n st (if c = .complete then .ok else .noEdge) (collectResult u { x with completion := c }) s t ∧
    OnlyStationEngineUnits n s t ∧ t.unit u = MeasUnit.initial ∧ ∀ v, v ≠ u → t.unit v = s.unit v := by
  obtain ⟨hs, _, _⟩ := step_of_flying h
  have hunit : (s.setUnit u (completed x c)).unit u = completed x c := by rw [unit_setUnit, if_pos rfl]
  have hfly : (s.setUnit u (completed x c)).flyingStep n = some st := h.1
  have hcoll : (s.setUnit u (completed x c)).collector u = some n := by
    have hb : (completed x c).binding = some (n, slot) := hx
    unfold State.collector
    rw [hunit, hb]
    dsimp only
    rw [hfly]
    exact if_pos h.2
  have heq : unitDone u c x s = collectUnit n u (s.setUnit u (completed x c)) := by
    unfold unitDone
    dsimp only
    unfold completed at hcoll ⊢
    rw [hcoll]
  have hcode : collectCode (completed x c) = if c = .complete then .ok else .noEdge := collectCode_eq _
  have hnil : (endStep n (collectCode (completed x c)) (collectResult u (completed x c))
      (s.setUnit u MeasUnit.initial)).waitList = [] := by
    rw [endStep_waitList]
    exact hw
  dsimp only
  rw [heq, ← hcode]
  unfold collectUnit freeOneUnit
  rw [hunit, setUnit_setUnit, arbitrate_nil hnil]
  obtain ⟨hends, honly, _, hu, hv⟩ := endStep_setUnit hs u MeasUnit.initial (collectCode (completed x c))
    (collectResult u (completed x c))
  exact ⟨hends, honly, hu, hv⟩

/-! ### Edges (R123, R125, R127 to R130) -/

theorem countsX_iff (x : MeasUnit) (e : EdgeEvent) : x.countsX e = true ↔ x.arm.x = e.signal ∧ x.obsX ≠ e.high := by
  unfold MeasUnit.countsX
  simp

theorem countsY_iff (x : MeasUnit) (e : EdgeEvent) : x.countsY e = true ↔ x.arm.y = e.signal ∧ x.obsY ≠ e.high := by
  unfold MeasUnit.countsY
  simp

theorem edgeMatches_iff (c : EdgeCode) (high : Bool) :
    c.matches high = true ↔ c = .both ∨ (c = .rising ∧ high = true) ∨ (c = .falling ∧ high = false) := by
  unfold EdgeCode.matches
  cases c <;> simp

theorem gateAdmits_iff (x : MeasUnit) :
    x.gateAdmits = true ↔ x.arm.gating = .none ∨ (x.arm.gating = .whileHigh ∧ x.obsY = true) ∨
      (x.arm.gating = .whileLow ∧ x.obsY = false) := by
  unfold MeasUnit.gateAdmits
  cases x.arm.gating <;> simp

/-- An edge of an ARMED unit. -/
theorem edge_armed {x : MeasUnit} (h : x.state = .armed) (e : EdgeEvent) :
    x.edge e =
      if x.arm.start = .edgeX ∧ x.countsX e = true ∧ x.arm.xEdge.matches e.high = true then
        ((x.observe e).begin e.stamp, false)
      else (x.observe e, false) := by
  unfold MeasUnit.edge
  rw [h]

/-- An edge of a RUNNING INTERVAL. -/
theorem edge_interval {x : MeasUnit} (h : x.state = .running) (hk : x.arm.kind = .interval) (e : EdgeEvent) :
    x.edge e =
      if x.countsY e = true ∧ x.arm.yEdge.matches e.high = true then
        ({ x.observe e with a := x.startStamp, b := e.stamp, c := e.stamp - x.startStamp }, true)
      else (x.observe e, false) := by
  unfold MeasUnit.edge
  rw [h]
  dsimp only
  rw [hk]

/-- An edge of a RUNNING WIDTH. -/
theorem edge_width {x : MeasUnit} (h : x.state = .running) (hk : x.arm.kind = .width) (e : EdgeEvent) :
    x.edge e =
      if x.countsX e = true ∧ x.arm.xEdge.matches e.high = false then
        ({ x.observe e with a := x.startStamp, b := e.stamp, c := e.stamp - x.startStamp }, true)
      else (x.observe e, false) := by
  unfold MeasUnit.edge
  rw [h]
  dsimp only
  rw [hk]

/-- An edge of a RUNNING FREQUENCY. -/
theorem edge_frequency {x : MeasUnit} (h : x.state = .running) (hk : x.arm.kind = .frequency) (e : EdgeEvent) :
    x.edge e = (if x.countsX e = true ∧ e.high = true then { x.observe e with c := x.c + 1 } else x.observe e, false) := by
  unfold MeasUnit.edge
  rw [h]
  dsimp only
  rw [hk]

/-- An edge of a RUNNING EDGES. -/
theorem edge_edges {x : MeasUnit} (h : x.state = .running) (hk : x.arm.kind = .edges) (e : EdgeEvent) :
    x.edge e =
      (if x.countsX e = true ∧ x.arm.xEdge.matches e.high = true ∧ x.gateAdmits = true then
        { x.observe e with a := if x.c = 0 then e.stamp else x.a, b := e.stamp, c := x.c + 1 }
      else x.observe e, false) := by
  unfold MeasUnit.edge
  rw [h]
  dsimp only
  rw [hk]

/-- The command that takes the oldest edge of a unit. -/
theorem exec_measuredEdge {s : State} {u : UnitId} {e : EdgeEvent} {rest : List EdgeEvent} (h : (s.unit u).inbox = e :: rest)
    {x : MeasUnit} {ends : Bool} (hx : ({ s.unit u with inbox := rest } : MeasUnit).edge e = (x, ends)) :
    exec (.measuredEdge u) s = .next (if ends then unitDone u .complete x s else s.setUnit u x) := by
  show execMeasuredEdge u s = _
  unfold execMeasuredEdge measuredEdge
  rw [h]
  dsimp only
  rw [hx]

/-- An edge that does not end the measurement changes its unit alone. -/
theorem measuredEdge_becomes {s : State} {u : UnitId} {e : EdgeEvent} {rest : List EdgeEvent} (h : (s.unit u).inbox = e :: rest)
    {x : MeasUnit} (hx : ({ s.unit u with inbox := rest } : MeasUnit).edge e = (x, false)) :
    Completes (exec (.measuredEdge u) s) fun t => t = s.setUnit u x := ⟨_, exec_measuredEdge h hx, rfl⟩

/-- An edge that ends the measurement while no COLLECT waits for it. -/
theorem measuredEdge_completes {s : State} {u : UnitId} {e : EdgeEvent} {rest : List EdgeEvent}
    (h : (s.unit u).inbox = e :: rest) {x : MeasUnit}
    (hx : ({ s.unit u with inbox := rest } : MeasUnit).edge e = (x, true)) (hb : x.binding = (s.unit u).binding)
    (hc : s.collector u = none) :
    Completes (exec (.measuredEdge u) s) fun t => t = s.setUnit u (completed x .complete) :=
  ⟨_, exec_measuredEdge h hx, by rw [if_pos rfl, unitDone_alone hb hc]⟩

/-- Settles O55: what an edge does to a unit by its state and kind. -/
theorem measuredEdgesStartStopAndCount : Obligations.MeasuredEdgesStartStopAndCount := by
  intro s u e rest hin x seen changesX changesY matching gated becomes done
  let y : MeasUnit := { x with inbox := rest }
  have hX : y.countsX e = true ↔ changesX := countsX_iff y e
  have hY : y.countsY e = true ↔ changesY := countsY_iff y e
  have hm : ∀ c : EdgeCode, c.matches e.high = true ↔ matching c := fun c => edgeMatches_iff c e.high
  have hm' : ∀ c : EdgeCode, c.matches e.high = false ↔ ¬matching c := fun c => by rw [← hm, Bool.not_eq_true]
  have hg : y.gateAdmits = true ↔ gated := gateAdmits_iff y
  have hseen : y.observe e = seen := rfl
  have hstop : ∀ (hr : x.state = .running),
      (x.arm.kind = .interval ∧ changesY ∧ matching x.arm.yEdge) ∨ (x.arm.kind = .width ∧ changesX ∧ ¬matching x.arm.xEdge) →
      y.edge e = ({ seen with a := x.startStamp, b := e.stamp, c := e.stamp - x.startStamp }, true) := by
    rintro hr (⟨hk, hc, hmy⟩ | ⟨hk, hc, hmx⟩)
    · exact (edge_interval (x := y) hr hk e).trans (if_pos ⟨hY.mpr hc, (hm _).mpr hmy⟩)
    · exact (edge_width (x := y) hr hk e).trans (if_pos ⟨hX.mpr hc, (hm' _).mpr hmx⟩)
  refine ⟨fun n st slot hb hfly hw hr hkind => ?_, fun ha hc => ?_, fun ha hc => ?_, fun hr hk hc hcoll => ?_, fun hr hk hc => ?_,
    fun hr hk hc hcoll => ?_, fun hr hk hc => ?_, fun hr hk => ?_, fun hr hk hc => ?_, fun hr hk hc => ?_⟩
  · refine ⟨_, exec_measuredEdge hin (hstop hr hkind), ?_⟩
    rw [if_pos rfl]
    exact unitDone_collected (x := { seen with a := x.startStamp, b := e.stamp, c := e.stamp - x.startStamp }) hb hfly hw .complete
  · obtain ⟨hs, hcx, hmx⟩ := hc
    exact measuredEdge_becomes hin ((edge_armed (x := y) ha e).trans (if_pos ⟨hs, hX.mpr hcx, (hm _).mpr hmx⟩))
  · refine measuredEdge_becomes hin ((edge_armed (x := y) ha e).trans (if_neg fun hh => hc ?_))
    obtain ⟨hs, hcx, hmx⟩ := hh
    exact ⟨hs, hX.mp hcx, (hm _).mp hmx⟩
  · exact measuredEdge_completes hin (hstop hr (Or.inl ⟨hk, hc⟩)) rfl hcoll
  · refine measuredEdge_becomes hin ((edge_interval (x := y) hr hk e).trans (if_neg fun hh => hc ?_))
    exact ⟨hY.mp hh.1, (hm _).mp hh.2⟩
  · exact measuredEdge_completes hin (hstop hr (Or.inr ⟨hk, hc⟩)) rfl hcoll
  · refine measuredEdge_becomes hin ((edge_width (x := y) hr hk e).trans (if_neg fun hh => hc ?_))
    exact ⟨hX.mp hh.1, (hm' _).mp hh.2⟩
  · refine measuredEdge_becomes hin ((edge_frequency (x := y) hr hk e).trans (congrArg (·, false) ?_))
    simp only [hX]
    rfl
  · obtain ⟨hcx, hmx, hga⟩ := hc
    exact measuredEdge_becomes hin ((edge_edges (x := y) hr hk e).trans
      (congrArg (·, false) (if_pos ⟨hX.mpr hcx, (hm _).mpr hmx, hg.mpr hga⟩)))
  · refine measuredEdge_becomes hin ((edge_edges (x := y) hr hk e).trans (congrArg (·, false) (if_neg fun hh => hc ?_)))
    obtain ⟨hcx, hmx, hga⟩ := hh
    exact ⟨hX.mp hcx, (hm _).mp hmx, hg.mp hga⟩

/-! ### Windows and gates (R126, R129, R131) -/

theorem exec_windowExpiry {s : State} {u : UnitId} (h : (s.unit u).window = some 0) :
    exec (.windowExpiry u) s = .next (windowExpiry u s) :=
  congrArg Host.Outcome.next (if_pos (by simp [windowDue, h]))

theorem exec_gateEnd {s : State} {u : UnitId} (h : (s.unit u).gate = some 0) (hr : (s.unit u).state = .running) :
    exec (.gateEnd u) s = .next (gateEnd u s) :=
  congrArg Host.Outcome.next (if_pos (by simp [gateDue, h, hr]))

/-- How each expiry of a unit's timer completes its measurement: the command, the completion code and the captures. -/
inductive Expires (u : UnitId) (x : MeasUnit) : Instr → Completion → Word → Word → Word → Prop
  | notStarted (hw : x.window = some 0) (ha : x.state = .armed) : Expires u x (.windowExpiry u) .noStart 0 0 0
  | notStopped (hw : x.window = some 0) (hr : x.state = .running) (hk : x.arm.kind = .interval ∨ x.arm.kind = .width) :
    Expires u x (.windowExpiry u) .noStop x.startStamp 0 0
  | counted (hw : x.window = some 0) (hr : x.state = .running) (hk : x.arm.kind = .edges) :
    Expires u x (.windowExpiry u) .complete x.a x.b x.c
  | gated (hg : x.gate = some 0) (hr : x.state = .running) :
    Expires u x (.gateEnd u) .complete x.startStamp (BitVec.ofNat 32 x.arm.gate) x.c

theorem exec_of_expires {s : State} {u : UnitId} {i : Instr} {completion : Completion} {a b c : Word}
    (h : Expires u (s.unit u) i completion a b c) :
    exec i s = .next (unitDone u completion { s.unit u with a := a, b := b, c := c } s) := by
  cases h with
  | notStarted hw ha =>
    rw [exec_windowExpiry hw]
    unfold windowExpiry
    dsimp only
    rw [ha]
  | notStopped hw hr hk =>
    rw [exec_windowExpiry hw]
    unfold windowExpiry
    dsimp only
    rw [hr]
    rcases hk with hk | hk <;> rw [hk]
  | counted hw hr hk =>
    have hx : windowExpiry u s = unitDone u .complete (s.unit u) s := by
      unfold windowExpiry
      dsimp only
      rw [hr]
      dsimp only
      rw [hk]
    exact (exec_windowExpiry hw).trans (congrArg Host.Outcome.next hx)
  | gated hg hr => exact exec_gateEnd hg hr

/-- Settles O56: the window and the gate complete a measurement. -/
theorem windowAndGateCompleteTheMeasurement : Obligations.WindowAndGateCompleteTheMeasurement := by
  intro s u x becomes window gate
  refine ⟨fun hcoll => ?_, fun n st slot hb hfly hw => ?_⟩
  · have alone : ∀ {i completion a b c}, Expires u x i completion a b c → becomes i completion a b c := fun {_ _ a b c} h =>
      ⟨_, exec_of_expires h, unitDone_alone (x := { x with a := a, b := b, c := c }) rfl hcoll _⟩
    exact ⟨fun hwin ha => alone (.notStarted hwin ha), fun hwin hr hk => alone (.notStopped hwin hr hk),
      fun hwin hr hk => alone (.counted hwin hr hk), fun hg hr => alone (.gated hg hr)⟩
  · intro ends
    have collected : ∀ {i completion a b c}, Expires u x i completion a b c →
        ends i (if completion = .complete then .ok else .noEdge) completion a b c := fun {_ completion a b c} h =>
      ⟨_, exec_of_expires h, unitDone_collected (x := { x with a := a, b := b, c := c }) hb hfly hw completion⟩
    exact ⟨fun hwin ha => collected (.notStarted hwin ha), fun hwin hr hk => collected (.notStopped hwin hr hk),
      fun hwin hr hk => collected (.counted hwin hr hk), fun hg hr => collected (.gated hg hr)⟩

end Sys2Proof.Proofs
end

section
/-! PROOFS. The sync lines' judging, a round that is settled without a release, and the release of a round (R144 to R160). -/

namespace Sys2Proof.Proofs

open Sys2Proof.Machine Sys2Proof.Laws

/-! ### Lines that are judged (R158) -/

/-- The judging of one line. -/
theorem judgeLine_judged (l : Line) (s : State) : LineJudged l s (judgeLine l s) := by
  have hcond : (judgeLine l s).releaseCondition l = s.releaseCondition l := releaseCondition_congr (by simp) l
  unfold LineJudged
  dsimp only
  rw [hcond]
  unfold judgeLine
  cases hd : (s.line l).drive <;> cases hr : s.releaseCondition l <;> cases hf : (s.line l).filter.accepted <;> simp [hd]
  · obtain ⟨hdrive, hothers, _⟩ := setDrive_spec l .open s
    exact ⟨hdrive, by rw [pin_of _ hdrive, hothers]; simp⟩
  · exact (setDrive_spec l .pull s).1
  · exact (setDrive_spec l .pull s).1

/-- A judging reads the state after by its cohorts and its line. -/
theorem lineJudged_congr {l : Line} {s s' t t' : State} (h : LineJudged l s t) (hs : s'.line l = s.line l)
    (ht : t'.line l = t.line l) (hc : t'.cohorts = t.cohorts) : LineJudged l s' t' := by
  unfold LineJudged at h ⊢
  rw [hs, ht, releaseCondition_congr hc]
  exact h

/-- Both lines are judged by the cohorts as they stand. -/
theorem judgeLines_judged (l : Line) (s : State) : LineJudged l s (judgeLine .b (judgeLine .a s)) := by
  cases l with
  | a => exact lineJudged_congr (judgeLine_judged .a s) rfl (judgeLine_line_ne (by decide) _) (judgeLine_cohorts _ _)
  | b => exact lineJudged_congr (judgeLine_judged .b (judgeLine .a s)) (judgeLine_line_ne (by decide) _).symm rfl rfl

/-! ### A round that is examined without being released (R144, R148, R149) -/

/-- A cohort whose round has been examined without a release. -/
def Cohort.settled (x : Cohort) : Cohort :=
  if x.arrived = [] then { x with binding := none, ready := false }
  else if x.binding = none then x
  else { x with ready := x.complete }

theorem settled_sets (x : Cohort) :
    (Cohort.settled x).arrived = x.arrived ∧ (Cohort.settled x).live = x.live ∧
    (Cohort.settled x).generation = x.generation := by
  unfold Cohort.settled
  (repeat' split) <;> exact ⟨rfl, rfl, rfl⟩

/-- A round left without arrivals has ended. -/
theorem settled_empty {x : Cohort} (h : x.arrived = []) : Cohort.settled x = { x with binding := none, ready := false } := if_pos h

/-- An incomplete round keeps its binding, and is not ready when it is bound to a line. -/
theorem settled_incomplete {x : Cohort} (h : x.arrived ≠ []) (hc : x.complete = false) :
    Cohort.settled x = { x with ready := x.ready && x.binding.isNone } := by
  unfold Cohort.settled
  rw [if_neg h, hc]
  split
  · next hb => rw [hb, Option.isNone_none, Bool.and_true, ← hb]
  · next hb =>
    have hsome : x.binding.isNone = false := Bool.eq_false_iff.mpr fun hn => hb (Option.isNone_iff_eq_none.mp hn)
    rw [hsome, Bool.and_false]

theorem setCohort_self (s : State) (k : CohortId) : s.setCohort k (s.cohort k) = s := by
  unfold State.setCohort State.cohort
  congr 1
  exact Vector.set_getElem_self _

/-- The examination of a round that is not released. -/
theorem settleCohort_unreleased {k : CohortId} {s : State}
    (h : (s.cohort k).arrived = [] ∨ (s.cohort k).binding ≠ none ∨ (s.cohort k).complete = false) :
    settleCohort k s = judgeLine .b (judgeLine .a (s.setCohort k (Cohort.settled (s.cohort k)))) := by
  unfold settleCohort Cohort.settled
  dsimp only
  by_cases ha : (s.cohort k).arrived = []
  · rw [if_pos ha, if_pos ha]
  · rw [if_neg ha, if_neg ha]
    cases hb : (s.cohort k).binding with
    | none =>
      have hc : (s.cohort k).complete = false := by simpa [ha, hb] using h
      dsimp only
      rw [if_neg (by simp [hc]), if_pos rfl, setCohort_self]
    | some l =>
      dsimp only
      rw [if_neg (by simp)]

/-- The examination of a complete round of no line in ACTIVE. -/
theorem settleCohort_released {k : CohortId} {s : State} (hne : (s.cohort k).arrived ≠ []) (hb : (s.cohort k).binding = none)
    (hc : (s.cohort k).complete = true) (ha : s.ctl.state = .active) :
    settleCohort k s = judgeLine .b (judgeLine .a (releaseRound k s)) := by
  unfold settleCohort
  dsimp only
  rw [if_neg hne, hb]
  dsimp only
  rw [if_pos ⟨hc, by simp [State.active, ha]⟩]

/-- What the examination of a round leaves when it is not released, and how it judges the lines. -/
theorem settleCohort_spec {k : CohortId} {s : State}
    (h : (s.cohort k).arrived = [] ∨ (s.cohort k).binding ≠ none ∨ (s.cohort k).complete = false) :
    let t := settleCohort k s
    t = { s with cohorts := t.cohorts, lineA := t.lineA, lineB := t.lineB } ∧
    t.cohort k = Cohort.settled (s.cohort k) ∧ (∀ j, j ≠ k → t.cohort j = s.cohort j) ∧ ∀ l, LineJudged l s t := by
  dsimp only
  rw [settleCohort_unreleased h]
  refine ⟨?_, ?_, fun j hj => ?_, fun l => ?_⟩
  · ext1 <;> simp
  · rw [judgeLine_cohort, judgeLine_cohort, cohort_setCohort, if_pos rfl]
  · rw [judgeLine_cohort, judgeLine_cohort, cohort_setCohort, if_neg hj]
  · exact lineJudged_congr (judgeLines_judged l _) (setCohort_line _ _ _ _).symm rfl rfl

/-- The arrived set equals the live set. -/
theorem complete_iff (x : Cohort) :
    x.complete = true ↔ ∀ m, m ∈ x.live ↔ m ∈ x.arrived.map Arrival.station := by
  unfold Cohort.complete
  simp only [List.all_eq_true, List.mem_finRange, true_implies, beq_iff_eq]
  refine forall_congr' fun m => ?_
  rw [Bool.eq_iff_iff]
  simp

theorem complete_false_of {x : Cohort} {m : StationId} (hl : m ∈ x.live) (ha : ∀ a ∈ x.arrived, a.station ≠ m) :
    x.complete = false := by
  rw [← Bool.not_eq_true, complete_iff]
  intro h
  obtain ⟨a, hmem, rfl⟩ := List.mem_map.mp ((h m).mp hl)
  exact ha a hmem rfl

/-! ### A station that leaves the arrived set and stays live (R152, R154) -/

theorem arrived_any_iff (x : Cohort) (n : StationId) :
    (x.arrived.any fun a => a.station == n) = true ↔ ∃ a ∈ x.arrived, a.station = n := by
  simp

/-- A live station that has not arrived leaves nothing. -/
theorem leaveArrived_absent {s : State} {n : StationId} {k : CohortId} (hk : (s.ctx n).cohort = some k)
    (h : ∀ a ∈ (s.cohort k).arrived, a.station ≠ n) : leaveArrived n s = s := by
  unfold leaveArrived
  rw [hk]
  exact if_neg fun hany => by
    obtain ⟨a, ha, hn⟩ := (arrived_any_iff _ _).mp hany
    exact h a ha hn

/-- A live station leaves the arrived set of its cohort. -/
theorem leaveArrived_withdraws {s : State} {n : StationId} {k : CohortId} (hk : (s.ctx n).cohort = some k)
    (hl : n ∈ (s.cohort k).live) (h : ∃ a ∈ (s.cohort k).arrived, a.station = n) :
    let t := leaveArrived n s
    t = { s with cohorts := t.cohorts, lineA := t.lineA, lineB := t.lineB } ∧ (∀ j, j ≠ k → t.cohort j = s.cohort j) ∧
    ArrivalWithdrawn n k s t := by
  have heq : leaveArrived n s = settleCohort k (s.setCohort k ((s.cohort k).dropArrived n)) := by
    unfold leaveArrived
    rw [hk]
    exact if_pos ((arrived_any_iff _ _).mpr h)
  have hx : (s.setCohort k ((s.cohort k).dropArrived n)).cohort k = (s.cohort k).dropArrived n := by
    rw [cohort_setCohort, if_pos rfl]
  have hinc : ((s.cohort k).dropArrived n).complete = false := by
    refine complete_false_of (m := n) hl fun a ha => ?_
    simpa using (List.mem_filter.mp ha).2
  obtain ⟨hf, hck, hcj, hline⟩ := settleCohort_spec (k := k) (s := s.setCohort k ((s.cohort k).dropArrived n))
    (Or.inr (Or.inr (by rw [hx, hinc])))
  dsimp only
  rw [heq]
  refine ⟨by rw [hf]; rfl, fun j hj => by rw [hcj j hj, cohort_setCohort, if_neg hj], ?_⟩
  unfold ArrivalWithdrawn
  dsimp only
  rw [hck, hx]
  obtain ⟨harr, hlive, hgen⟩ := settled_sets ((s.cohort k).dropArrived n)
  refine ⟨harr, hlive, hgen, fun he => ?_, fun hne => ?_,
    fun l => lineJudged_congr (hline l) (setCohort_line _ _ _ _).symm rfl rfl⟩
  · rw [settled_empty (harr.symm.trans he)]
    exact ⟨rfl, rfl⟩
  · rw [settled_incomplete (fun h => hne (harr.trans h)) hinc]
    exact ⟨rfl, rfl⟩

/-! ### The deadlines of the shared blocks (R135, R139, R152) -/

/-- A change outside the station and the engine, before the end of its step. -/
theorem endStep_afterShared {s t : State} {n : StationId} {st : InFlight} (hs : (s.ctx n).step = some st)
    (hst : t.stations = s.stations) (he : t.engine = s.engine) (ht : t.time = s.time) (hp : t.ctl = s.ctl) (code : Code)
    (result : List Byte) :
    let u := endStep n code result t
    StepEnds n st code result s u ∧ u.st n = { s.st n with ctx := u.ctx n } ∧ (∀ m, m ≠ n → u.st m = s.st m) ∧
    u = { t with stations := u.stations, engine := u.engine } := by
  obtain ⟨hends, ⟨hf, ho⟩, hown⟩ := endStep_after (s := s) (t := t) hs (congrArg Station.ctx (st_congr hst n)) he ht hp code result
  refine ⟨hends, ?_, fun m hm => ?_, hf⟩
  · rw [hown, st_congr hst n]
  · rw [ho m hm, st_congr hst m]

/-- Settles O57: the deadlines of ARM, COLLECT and BARRIER. -/
theorem deadlinesOfTheSharedBlocks : Obligations.DeadlinesOfTheSharedBlocks := by
  intro s n st hs hd
  have hexp : s.expired n = true := by simp [State.expired, hd]
  refine ⟨fun hw => ⟨_, congrArg Host.Outcome.next (if_pos ?_), ?_⟩, fun slot u hfly hu hnil => ?_, fun k hb hk hl => ?_⟩
  · simp [noUnitDue, hw, hexp]
  · obtain ⟨hends, hown, hother, hf⟩ := endStep_afterShared (s := s)
      (t := { s with waitList := s.waitList.filter fun e => e.station != n }) hs rfl rfl rfl rfl .noUnit []
    exact ⟨hends, hown, hother, hf⟩
  · have hslot : s.collectSlot n = some slot := by
      unfold State.collectSlot
      rw [hfly.1]
      dsimp only
      rw [hfly.2]
    have hexec : exec (.collectTimeout n) s =
        .next (endStep n .collectTimeout [] (s.setUnit u MeasUnit.initial)) := by
      refine congrArg Host.Outcome.next ((if_pos (by simp [collectTimeoutDue, hslot, hexp])).trans ?_)
      have hab : abandonCollect n slot s = s.setUnit u MeasUnit.initial := by
        unfold abandonCollect
        rw [hu]
        rfl
      unfold collectTimeout
      rw [hslot]
      dsimp only
      rw [hab]
      exact arbitrate_nil (by rw [endStep_waitList]; exact hnil)
    obtain ⟨hends, honly, _, hfree, hv⟩ := endStep_setUnit hs u MeasUnit.initial .collectTimeout []
    exact ⟨_, hexec, hends, honly, hfree, hv⟩
  · refine ⟨_, congrArg Host.Outcome.next (if_pos (by simp [barrierTimeoutDue, hb, hexp])), ?_⟩
    have hl' : n ∈ (s.cohort k).live := by simpa using hl
    have hcoh : ∀ t : State, (endStep n .barrierTimeout [] t).cohort k = t.cohort k := fun t => by
      unfold State.cohort
      rw [endStep_cohorts]
    dsimp only
    rw [hcoh]
    by_cases ha : ∃ a ∈ (s.cohort k).arrived, a.station = n
    · obtain ⟨hf, _, hw⟩ := leaveArrived_withdraws hk hl' ha
      generalize leaveArrived n s = t at hf hw ⊢
      obtain ⟨hends, _, hother, hfu⟩ := endStep_afterShared (s := s) (t := t) hs (by rw [hf]) (by rw [hf]) (by rw [hf])
        (by rw [hf]) .barrierTimeout []
      have hw' := hw
      unfold ArrivalWithdrawn at hw' ⊢
      obtain ⟨harr, hlive, hgen, hempty, hnonempty, hjudged⟩ := hw'
      refine ⟨hends, hother, harr, hlive, hgen, fun _ => ?_⟩
      rw [hcoh]
      refine ⟨harr, hlive, hgen, hempty, hnonempty, fun l => lineJudged_congr (hjudged l) rfl ?_ (endStep_cohorts ..)⟩
      cases l
      · exact endStep_lineA ..
      · exact endStep_lineB ..
    · have habs : ∀ a ∈ (s.cohort k).arrived, a.station ≠ n := fun a hmem hn => ha ⟨a, hmem, hn⟩
      rw [leaveArrived_absent hk habs]
      obtain ⟨hends, ⟨_, ho⟩, _⟩ := endStep_alone hs .barrierTimeout []
      refine ⟨hends, ho, ?_, rfl, rfl, fun hex => absurd hex ha⟩
      exact (List.filter_eq_self.mpr fun a hmem => by simpa using habs a hmem).symm

end Sys2Proof.Proofs
end

section
/-! PROOFS. BARRIER, the release of a round, and the sync lines' own events (R100, R125, R146 to R151, R158 to R160). -/

namespace Sys2Proof.Proofs

open Sys2Proof.Machine Sys2Proof.Laws

/-! ### Arriving (R146 to R149) -/

theorem exec_barrier {s : State} {n : StationId} {st : InFlight} {line : Option Line} {channel : Option ChannelId}
    {delay width : Nat} (h : Handed s n st (.barrier line channel delay width)) :
    exec (.barrier n) s = .next (barrierStep n st line channel delay width s) := by
  show execBarrier n s = _
  unfold execBarrier
  rw [h.1]
  dsimp only
  rw [h.2]

/-- A BARRIER is refused for a line not in use, and for another line than its round's. -/
theorem barrierAllowed_iff (s : State) (k : CohortId) (line : Option Line) :
    barrierAllowed s k line = true ↔
      ¬((∃ l, line = some l ∧ s.ctl.useFlag l = false) ∨ ((s.cohort k).arrived ≠ [] ∧ (s.cohort k).binding ≠ line)) := by
  unfold barrierAllowed
  cases line with
  | none => simp [Classical.or_iff_not_imp_left]
  | some l => cases hu : s.ctl.useFlag l <;> simp [hu, Classical.or_iff_not_imp_left]

/-- The station stands at the barrier. -/
theorem standAt_spec {s : State} {n : StationId} {st : InFlight} {line : Option Line} {channel : Option ChannelId}
    {delay width : Nat} (hop : st.op = .barrier line channel delay width) (k : CohortId) (a : Arrival) :
    let t := standAt n st k line a s
    t = { s with stations := t.stations, cohorts := t.cohorts } ∧
    t.st n = { s.st n with ctx := { waitingCtx s n st 60000 with state := .atBarrier } } ∧ (∀ m, m ≠ n → t.st m = s.st m) ∧
    t.cohort k = (s.cohort k).arrive a line ∧ ∀ j, j ≠ k → t.cohort j = s.cohort j := by
  have hcohort : ∀ j, (standAt n st k line a s).cohort j = if j = k then (s.cohort k).arrive a line else s.cohort j :=
    fun j => cohort_setCohort ..
  refine ⟨rfl, ?_, fun m hm => ?_, (hcohort k).trans (if_pos rfl), fun j hj => (hcohort j).trans (if_neg hj)⟩
  · refine (setSt_st_self _ _ _).trans ?_
    unfold markWaiting
    rw [setCtx_ctx_self, State.setCtx, setSt_st_self, deadlineTicks_eq hop]
    rfl
  · refine ((onlyStation_setCtx (markWaiting n st s) n _).2 m hm).trans ?_
    exact (onlyStation_setCtx s n _).2 m hm

/-- A BARRIER that arrives without releasing its round. -/
theorem barrierStep_stands {s : State} {n : StationId} {st : InFlight} {line : Option Line} {channel : Option ChannelId}
    {delay width : Nat} (hop : st.op = .barrier line channel delay width) {k : CohortId} (hk : (s.ctx n).cohort = some k)
    (hok : barrierAllowed s k line = true) (a : Arrival)
    (ha : a = { station := n, channel := channel, delay := delay, width := width })
    (h : ((s.cohort k).arrive a line).binding ≠ none ∨ ((s.cohort k).arrive a line).complete = false) :
    let t := barrierStep n st line channel delay width s
    t.ctx n = { waitingCtx s n st 60000 with state := .atBarrier } ∧ (∀ m, m ≠ n → t.st m = s.st m) ∧
    t = { s with stations := t.stations, cohorts := t.cohorts, lineA := t.lineA, lineB := t.lineB } ∧
    (∀ j, j ≠ k → t.cohort j = s.cohort j) ∧ t.cohort k = Cohort.settled ((s.cohort k).arrive a line) ∧
    ∀ l, LineJudged l s t := by
  have heq : barrierStep n st line channel delay width s = settleCohort k (standAt n st k line a s) := by
    unfold barrierStep
    rw [hk, ha]
    exact if_pos hok
  obtain ⟨hf, hown, hother, hck, hcj⟩ := standAt_spec (s := s) (n := n) hop k a
  dsimp only
  rw [heq]
  generalize standAt n st k line a s = u at hf hown hother hck hcj ⊢
  obtain ⟨gf, gck, gcj, gline⟩ := settleCohort_spec (k := k) (s := u) (by rw [hck]; exact Or.inr h)
  generalize settleCohort k u = t at gf gck gcj gline ⊢
  have hst : ∀ m, t.st m = u.st m := fun m => st_congr (by rw [gf]) m
  refine ⟨?_, fun m hm => (hst m).trans (hother m hm), ?_, fun j hj => (gcj j hj).trans (hcj j hj), by rw [gck, hck], fun l => ?_⟩
  · exact (congrArg Station.ctx (hst n)).trans (congrArg Station.ctx hown)
  · rw [gf, hf]
  · refine lineJudged_congr (gline l) ?_ rfl rfl
    rw [hf]
    cases l <;> rfl

/-- Settles O58: the answers of BARRIER short of a release. -/
theorem barrierIsRefusedOrArrives : Obligations.BarrierIsRefusedOrArrives := by
  intro s n st line channel delay width h
  obtain ⟨_, hs, _, hop⟩ := step_of_handed h
  refine ⟨fun hno => ⟨_, exec_barrier h, ?_⟩, ?_⟩
  · unfold barrierStep
    rw [hno]
    exact endStep_alone hs _ _
  · intro k hk x refused
    let a : Arrival := { station := n, channel := channel, delay := delay, width := width }
    have hallowed : barrierAllowed s k line = true ↔ ¬refused := barrierAllowed_iff s k line
    have hbind : ¬refused → (x.arrive a line).binding = line := by
      intro hr
      unfold Cohort.arrive
      dsimp only
      split
      · rfl
      · next hne => exact Classical.byContradiction fun hb => hr (Or.inr ⟨hne, hb⟩)
    have hne : (x.arrive a line).arrived ≠ [] := by
      unfold Cohort.arrive
      simp
    refine ⟨fun hr => ⟨_, exec_barrier h, ?_⟩, fun hr ⟨m, hm, hmn, hma⟩ => ⟨_, exec_barrier h, ?_⟩,
      fun l hl hr hall => ⟨_, exec_barrier h, ?_⟩⟩
    · unfold barrierStep
      rw [hk]
      dsimp only
      rw [if_neg fun hok => hallowed.mp hok hr]
      exact endStep_alone hs _ _
    · have hinc : (x.arrive a line).complete = false := by
        refine complete_false_of (m := m) hm fun b hb => ?_
        rcases List.mem_append.mp hb with hb | hb
        · exact hma b hb
        · rw [List.mem_singleton.mp hb]
          exact Ne.symm hmn
      obtain ⟨hctx, hother, hf, hcj, hck, hline⟩ := barrierStep_stands hop hk (hallowed.mpr hr) a rfl (Or.inr hinc)
      have hset := settled_incomplete hne hinc
      rw [hbind hr] at hset
      rw [hset] at hck
      refine ⟨hctx, hother, hf, hcj, ?_, ?_, ?_, ?_, hline, ?_⟩
      · rw [hck]
        rfl
      · rw [hck]
        rfl
      · rw [hck]
      · rw [hck]
        rfl
      · rw [hck]
        rfl
    · have hb : (x.arrive a line).binding = some l := by rw [hbind hr, hl]
      have hcomplete : (x.arrive a line).complete = true := by
        rw [complete_iff]
        intro m
        refine (hall m).trans ?_
        show _ ↔ m ∈ (x.arrived ++ [a]).map Arrival.station
        simp only [List.map_append, List.mem_append, List.mem_map, List.map_cons, List.map_nil, List.mem_singleton]
        exact or_comm
      obtain ⟨hctx, hother, hf, hcj, hck, hline⟩ := barrierStep_stands hop hk (hallowed.mpr hr) a rfl (Or.inl (by rw [hb]; simp))
      refine ⟨hctx, hother, hf, hcj, ?_, hline⟩
      rw [hck]
      unfold Cohort.settled
      rw [if_neg hne, if_neg (by rw [hb]; simp), hcomplete, ← hb]
      rfl

/-! ### The release of one arrival (R100, R125, R150) -/

/-- A unit that has changed by edges to take alone. -/
def OnlyInbox (x y : MeasUnit) : Prop := y = { x with inbox := y.inbox }

theorem onlyInbox_of_unitsSee {n : StationId} {sig : Signal} {high : Bool} {s t : State} (h : UnitsSee n sig high s t)
    (u : UnitId) : OnlyInbox (s.unit u) (t.unit u) := by
  unfold OnlyInbox
  rw [h u]
  split <;> rfl

theorem releasePulse_idle {a : Arrival} {s : State} {c : ChannelId} (hc : a.channel = some c)
    (h : (s.chan a.station c).state = .idle) :
    releasePulse a s = (startPress a.station c a.delay a.width false s, .ok) := by
  unfold releasePulse
  rw [hc]
  dsimp only
  rw [h]

/-- A busy channel refuses the release pulse. -/
theorem releasePulse_busy {a : Arrival} {s : State} {c : ChannelId} (hc : a.channel = some c)
    (h : (s.chan a.station c).state ≠ .idle) : releasePulse a s = (s, .releasePulseBusy) := by
  unfold releasePulse
  rw [hc]
  dsimp only
  split
  · contradiction
  all_goals rfl

/-- The release pulse of an arrival. -/
theorem releasePulse_spec (a : Arrival) (s : State) :
    (releasePulse a s).2 = releaseCode s a ∧ (∀ m, m ≠ a.station → (releasePulse a s).1.st m = s.st m) ∧
    (∀ u, OnlyInbox (s.unit u) ((releasePulse a s).1.unit u)) ∧
    ∀ c, a.channel = some c → (s.chan a.station c).state = .idle →
      ((releasePulse a s).1.chan a.station c).state = (if a.delay = 0 then .asserted else .delay) ∧
      ((releasePulse a s).1.chan a.station c).timer = some ((if a.delay = 0 then a.width else a.delay) + 1) := by
  unfold releaseCode
  cases hc : a.channel with
  | none =>
    have hnone : releasePulse a s = (s, .ok) := by
      unfold releasePulse
      rw [hc]
    rw [hnone]
    exact ⟨rfl, fun _ _ => rfl, fun _ => rfl, nofun⟩
  | some c =>
    dsimp only
    by_cases hi : (s.chan a.station c).state = .idle
    · rw [releasePulse_idle hc hi, if_pos hi]
      obtain ⟨⟨⟨_, ho⟩, _, _⟩, _, _, hedge, hset⟩ := startPress_spec hi a.delay a.width false
      refine ⟨rfl, ho, fun u => ?_, fun d hd _ => ?_⟩
      · unfold OutputEdge at hedge
        split at hedge
        · exact onlyInbox_of_unitsSee hedge u
        · unfold OnlyInbox State.unit
          rw [hedge]
      · obtain rfl := Option.some.inj hd
        rw [hset]
        exact ⟨rfl, rfl⟩
    · rw [releasePulse_busy hc hi, if_neg hi]
      refine ⟨rfl, fun _ _ => rfl, fun _ => rfl, fun d hd hidle => ?_⟩
      obtain rfl := Option.some.inj hd
      exact absurd hidle hi

/-- The end of a step leaves the channels alone. -/
theorem endStep_chan (s : State) (n m : StationId) (c : ChannelId) (code : Code) (result : List Byte) :
    (endStep n code result s).chan m c = s.chan m c := by
  unfold State.chan
  by_cases hm : m = n
  · subst hm
    cases hst : (s.ctx m).step with
    | none => rw [endStep_none hst]
    | some st => rw [(endStep_ends hst code result).2.2]
  · rw [endStep_st_ne s hm]

/-- An ended step is seen from any earlier state with the same context, time and requests of the station. -/
theorem stepEndsAmid_of_same {s u t : State} {n : StationId} {st st' : InFlight} {code : Code} {result : List Byte}
    (h : StepEndsAmid n st' code result u t) (hst : st'.noticeFlag = st.noticeFlag ∧ st'.disp = st.disp ∧ st'.start = st.start)
    (hc : ∃ a b c, u.ctx n = { s.ctx n with state := a, step := b, deadline := c }) (hn : u.now = s.now)
    (hb : u.engine.ownBusy n = s.engine.ownBusy n) : StepEndsAmid n st code result s t := by
  obtain ⟨hflag, hdisp, hstart⟩ := hst
  obtain ⟨a, b, c, hc⟩ := hc
  have hbytes : endBytes u n st' code result = endBytes s n st code result := by
    unfold endBytes
    rw [hc, hn, hstart]
  obtain ⟨hctx, hoff⟩ := h
  rw [hbytes] at hoff
  refine ⟨?_, hoff⟩
  rw [hctx]
  unfold endedCtx
  rw [hbytes, hc, hb, hflag, hdisp]

/-- The release of one arrival. -/
theorem releaseStation_spec (g : Half) (count : Nat) (s : State) (a : Arrival) :
    let t := releaseStation g count s a
    (∀ m, m ≠ a.station → t.st m = s.st m ∧ t.engine.ownBusy m = s.engine.ownBusy m) ∧
    (∀ st, (s.ctx a.station).step = some st →
      StepEndsAmid a.station st (releaseCode s a) (releaseResult g count s.now) s t ∧
      ∀ c, a.channel = some c → (s.chan a.station c).state = .idle →
        (t.chan a.station c).state = (if a.delay = 0 then .asserted else .delay) ∧
        (t.chan a.station c).timer = some ((if a.delay = 0 then a.width else a.delay) + 1)) ∧
    ∀ u, UnitReleased u [a] s t := by
  obtain ⟨hcode, hother, hunits, hchan⟩ := releasePulse_spec a s
  have hctx := releasePulse_ctx a a.station s
  have hengine := releasePulse_engine a s
  have htime := releasePulse_time a s
  unfold releaseStation
  dsimp only
  rw [hcode]
  generalize (releasePulse a s).1 = p at hother hunits hchan hctx hengine htime ⊢
  refine ⟨fun m hm => ⟨?_, ?_⟩, fun st hst => ⟨?_, fun c hc hi => ?_⟩, fun u => ?_⟩
  · rw [endStep_st_ne _ hm, st_congr (startUnits_stations _ _ _ _), hother m hm]
  · rw [endStep_ownBusy _ hm, startUnits_engine, hengine]
  · refine stepEndsAmid_of hst ?_ ?_ ?_ _ _
    · exact (congrArg Station.ctx (st_congr (startUnits_stations _ _ _ p) _)).trans hctx
    · unfold State.now
      rw [startUnits_time, htime]
    · rw [startUnits_engine, hengine]
  · rw [endStep_chan]
    exact hchan c hc hi
  · unfold UnitReleased
    rw [endStep_unit, startUnits_unit]
    have hu := hunits u
    unfold OnlyInbox at hu
    generalize p.unit u = y at hu ⊢
    generalize s.unit u = x at hu ⊢
    rw [hu]
    by_cases hb : x.binding.map Prod.fst = some a.station ∧ x.state = .armed ∧ x.arm.start = .release
    · simp only [List.mem_singleton, exists_eq_left]
      rw [if_pos hb, if_pos hb]
      rfl
    · simp only [List.mem_singleton, exists_eq_left]
      rw [if_neg hb, if_neg hb]

/-! ### The release of a round (R150, R151) -/

theorem unitReleased_trans {u : UnitId} {l l' : List Arrival} {s t v : State} (h : UnitReleased u l s t)
    (k : UnitReleased u l' t v) (hn : t.now = s.now) : UnitReleased u (l ++ l') s v := by
  unfold UnitReleased at h k ⊢
  rw [hn] at k
  generalize v.unit u = z at k ⊢
  generalize t.unit u = y at h k
  generalize s.unit u = x at h ⊢
  have hex : (∃ a ∈ l ++ l', x.binding.map Prod.fst = some a.station) ↔
      (∃ a ∈ l, x.binding.map Prod.fst = some a.station) ∨ ∃ a ∈ l', x.binding.map Prod.fst = some a.station := by
    simp only [List.mem_append, or_and_right, exists_or]
  by_cases h1 : (∃ a ∈ l, x.binding.map Prod.fst = some a.station) ∧ x.state = .armed ∧ x.arm.start = .release
  · rw [if_pos h1] at h
    have hrun : y.state = .running := by rw [h]; rfl
    rw [if_neg (by rw [hrun]; simp)] at k
    rw [if_pos ⟨hex.mpr (Or.inl h1.1), h1.2⟩, k, h]
  · rw [if_neg h1] at h
    have hb : y.binding = x.binding := by rw [h]
    have hs : y.state = x.state := by rw [h]
    have ha : y.arm = x.arm := by rw [h]
    rw [hb, hs, ha] at k
    have hiff : ((∃ a ∈ l ++ l', x.binding.map Prod.fst = some a.station) ∧ x.state = .armed ∧ x.arm.start = .release) ↔
        (∃ a ∈ l', x.binding.map Prod.fst = some a.station) ∧ x.state = .armed ∧ x.arm.start = .release := by
      rw [hex, or_and_right, or_iff_right h1]
    by_cases h2 : (∃ a ∈ l', x.binding.map Prod.fst = some a.station) ∧ x.state = .armed ∧ x.arm.start = .release
    · rw [if_pos h2] at k
      rw [if_pos (hiff.mpr h2), k, h]
      rfl
    · rw [if_neg h2] at k
      rw [if_neg (fun hc => h2 (hiff.mp hc)), k, h]

theorem endedRelease_ctl (g : Half) (count : Nat) (s : State) (l : List Arrival) :
    (l.foldl (releaseStation g count) s).ctl = s.ctl ∧ (l.foldl (releaseStation g count) s).now = s.now := by
  have hfix : fixed (l.foldl (releaseStation g count) s) = fixed s :=
    foldl_keeps fixed (fun t a => releaseStation_fixed g count a t) l s
  exact ⟨ctl_of_fixed hfix, by unfold State.now; rw [time_of_fixed hfix]⟩

/-- What the release does to one arrival. -/
def ArrivalReleased (g : Half) (count : Nat) (a : Arrival) (s t : State) : Prop :=
  ∀ st, (s.ctx a.station).step = some st →
    StepEndsAmid a.station st (releaseCode s a) (releaseResult g count s.now) s t ∧
    ∀ c, a.channel = some c → (s.chan a.station c).state = .idle →
      (t.chan a.station c).state = (if a.delay = 0 then .asserted else .delay) ∧
      (t.chan a.station c).timer = some ((if a.delay = 0 then a.width else a.delay) + 1)

theorem releaseCode_congr {a : Arrival} {s t : State} (h : t.st a.station = s.st a.station) : releaseCode t a = releaseCode s a := by
  unfold releaseCode State.chan
  rw [h]

/-- The release of the arrivals of a round, each of another station. -/
theorem foldl_releaseStation_spec (g : Half) (count : Nat) (l : List Arrival) (hl : Cohort.ArrivedOnce l) (s : State) :
    let t := l.foldl (releaseStation g count) s
    (∀ m, (∀ a ∈ l, a.station ≠ m) → t.st m = s.st m ∧ t.engine.ownBusy m = s.engine.ownBusy m) ∧
    (∀ a ∈ l, ArrivalReleased g count a s t) ∧ ∀ u, UnitReleased u l s t := by
  induction l generalizing s with
  | nil => exact ⟨fun _ _ => ⟨rfl, rfl⟩, nofun, fun u => by simp [UnitReleased]⟩
  | cons a l ih =>
    obtain ⟨ha, hl'⟩ := List.nodup_cons.mp (show (a.station :: l.map Arrival.station).Nodup from hl)
    have hne : ∀ b ∈ l, b.station ≠ a.station := fun b hb he => ha (List.mem_map.mpr ⟨b, hb, he⟩)
    obtain ⟨hother, hown, hunit⟩ := releaseStation_spec g count s a
    obtain ⟨hctl, hnow⟩ := endedRelease_ctl g count s [a]
    rw [List.foldl_cons, List.foldl_nil] at hctl hnow
    dsimp only
    rw [List.foldl_cons]
    generalize releaseStation g count s a = t at hother hown hunit hctl hnow ⊢
    obtain ⟨kother, kown, kunit⟩ := ih hl' t
    obtain ⟨kctl, _⟩ := endedRelease_ctl g count t l
    have hkept : ∀ {P : State → Prop}, KeptByWork P → P t → P (l.foldl (releaseStation g count) t) :=
      fun K h => K.foldl (fun b h => K.releaseStation h b) l h
    generalize l.foldl (releaseStation g count) t = v at kother kown kunit kctl hkept ⊢
    have hst : v.st a.station = t.st a.station := (kother a.station hne).1
    refine ⟨fun m hm => ?_, fun b hb => ?_, fun u => unitReleased_trans (hunit u) (kunit u) hnow⟩
    · obtain ⟨h1, h2⟩ := hother m (Ne.symm (hm a List.mem_cons_self))
      obtain ⟨k1, k2⟩ := kother m fun b hb => hm b (List.mem_cons_of_mem _ hb)
      exact ⟨k1.trans h1, k2.trans h2⟩
    · rcases List.mem_cons.mp hb with rfl | hb
      · intro st hstep
        obtain ⟨hends, hchan⟩ := hown st hstep
        refine ⟨stepEndsAmid_kept hends (congrArg Station.ctx hst) kctl hkept, fun c hc hi => ?_⟩
        unfold State.chan
        rw [hst]
        exact hchan c hc hi
      · obtain ⟨hstb, hbusy⟩ := hother b.station (hne b hb)
        intro st hstep
        have hctx : t.ctx b.station = s.ctx b.station := congrArg Station.ctx hstb
        obtain ⟨hends, hchan⟩ := kown b hb st (by rw [hctx, hstep])
        rw [releaseCode_congr hstb, hnow] at hends
        refine ⟨stepEndsAmid_of_same hends ⟨rfl, rfl, rfl⟩ ⟨_, _, _, hctx⟩ hnow hbusy, fun c hc hi => hchan c hc ?_⟩
        unfold State.chan
        rw [hstb]
        exact hi

/-- Another state in which the released round is seen alike. -/
theorem roundReleased_congr {k : CohortId} {l : List Arrival} {s t v : State} (h : RoundReleased k l s t)
    (hs : v.stations = t.stations) (hu : v.units = t.units) (hk : v.cohorts = t.cohorts) (he : v.engine = t.engine)
    (hc : v.ctl = t.ctl) : RoundReleased k l s v := by
  obtain ⟨hcohort, harr, hunit⟩ := h
  refine ⟨?_, fun a ha st hst => ?_, fun u => ?_⟩
  · unfold State.cohort at hcohort ⊢
    rw [hk, hcohort]
  · obtain ⟨⟨hctx, hoff⟩, hchan⟩ := harr a ha st hst
    have hv : v.st a.station = t.st a.station := st_congr hs _
    have hvc : v.ctx a.station = t.ctx a.station := congrArg Station.ctx hv
    refine ⟨⟨by rw [hvc, hctx], ?_⟩, fun c hch hi => ?_⟩
    · unfold OutcomeOffered TakesWrites OutcomeQueued RequestWaits outcomeWrite at hoff ⊢
      rw [hvc, hc, he]
      exact hoff
    · unfold State.chan
      rw [hv]
      exact hchan c hch hi
  · have hunit' := hunit u
    unfold UnitReleased State.unit at hunit' ⊢
    rw [hu]
    exact hunit'

/-- A round that is released. -/
theorem releaseRound_released {k : CohortId} {s : State} (h : Cohort.ArrivedOnce (s.cohort k).arrived) :
    RoundReleased k (s.cohort k).arrived s (releaseRound k s) := by
  refine ⟨releaseRound_cohort k s, ?_, ?_⟩
  all_goals
    unfold releaseRound
    dsimp only
    obtain ⟨_, harr, hunit⟩ := foldl_releaseStation_spec (s.cohort k).generation (s.cohort k).arrived.length _ h s
    generalize (s.cohort k).arrived.foldl
      (releaseStation (s.cohort k).generation (s.cohort k).arrived.length) s = t at harr hunit ⊢
  · exact fun a ha st hst => harr a ha st hst
  · exact hunit

/-- The release as it is seen from an earlier state: the steps of its arrivals may have been taken since. -/
theorem roundReleased_from {k : CohortId} {l : List Arrival} {s u t : State} (h : RoundReleased k l u t)
    (hr : (u.cohort k).released = (s.cohort k).released) (hg : (u.cohort k).generation = (s.cohort k).generation)
    (hn : u.now = s.now) (hb : u.engine = s.engine) (hu : u.units = s.units)
    (hchan : ∀ m c, u.chan m c = s.chan m c)
    (hctx : ∀ m st, (s.ctx m).step = some st → ∃ st', (u.ctx m).step = some st' ∧
      (st'.noticeFlag = st.noticeFlag ∧ st'.disp = st.disp ∧ st'.start = st.start) ∧
      ∃ a b c, u.ctx m = { s.ctx m with state := a, step := b, deadline := c }) : RoundReleased k l s t := by
  obtain ⟨hcohort, harr, hunit⟩ := h
  refine ⟨by rw [hcohort, hr], fun a ha st hst => ?_, fun v => ?_⟩
  · obtain ⟨st', hst', hsame, hc⟩ := hctx a.station st hst
    obtain ⟨hends, hpulse⟩ := harr a ha st' hst'
    have hcode : releaseCode u a = releaseCode s a := by
      unfold releaseCode
      simp only [hchan]
    rw [hcode, hg, hn] at hends
    refine ⟨stepEndsAmid_of_same hends hsame hc hn (by rw [hb]), fun c hc hi => hpulse c hc ?_⟩
    rw [hchan, hi]
  · have hv : u.unit v = s.unit v := by
      unfold State.unit
      rw [hu]
    have hunit' := hunit v
    unfold UnitReleased at hunit' ⊢
    rw [hv, hn] at hunit'
    exact hunit'

/-- Settles O59: the BARRIER that completes a round of no line releases it. -/
theorem completeRoundIsReleased : Obligations.CompleteRoundIsReleased := by
  intro s n st channel delay width k h hk hact hround a honce hall
  obtain ⟨_, hs, _, hop⟩ := step_of_handed h
  refine ⟨_, exec_barrier h, ?_⟩
  have hok : barrierAllowed s k none = true := by
    rw [barrierAllowed_iff]
    rintro (⟨l, hl, _⟩ | ⟨hne, hb⟩)
    · cases hl
    · exact hround.elim hne hb
  have heq : barrierStep n st none channel delay width s = settleCohort k (standAt n st k none a s) := by
    unfold barrierStep
    rw [hk]
    exact if_pos hok
  obtain ⟨hf, hown, hother, hck, _⟩ := standAt_spec (s := s) (n := n) hop k a
  rw [heq]
  generalize standAt n st k none a s = u at hf hown hother hck ⊢
  have harr : (u.cohort k).arrived = (s.cohort k).arrived ++ [a] := by rw [hck]; rfl
  have hbind : (u.cohort k).binding = none := by
    rw [hck]
    unfold Cohort.arrive
    dsimp only
    split
    · rfl
    · next hne => exact hround.resolve_left hne
  have hcomplete : (u.cohort k).complete = true := by
    rw [complete_iff, harr]
    intro m
    rw [← hall, hck]
    rfl
  have hactu : u.ctl.state = .active := by rw [hf]; exact hact
  have hrel : RoundReleased k ((s.cohort k).arrived ++ [a]) u (releaseRound k u) := by
    rw [← harr]
    exact releaseRound_released (by rw [harr]; exact honce)
  rw [settleCohort_released (by rw [harr]; simp) hbind hcomplete hactu]
  refine roundReleased_from (roundReleased_congr hrel (by simp) (by simp) (by simp) (by simp) (by simp)) (by rw [hck]; rfl)
    (by rw [hck]; rfl) (by rw [hf]; rfl) (by rw [hf]) (by rw [hf]) (fun m c => ?_) fun m st' hst' => ?_
  · unfold State.chan
    by_cases hm : m = n
    · rw [hm, hown]
    · rw [hother m hm]
  · by_cases hm : m = n
    · subst hm
      rw [hs] at hst'
      obtain rfl := Option.some.inj hst'
      have hctx : u.ctx m = { waitingCtx s m st 60000 with state := .atBarrier } := congrArg Station.ctx hown
      refine ⟨st.taken, by rw [hctx]; rfl, ⟨rfl, rfl, rfl⟩, .atBarrier, some st.taken, some (waitTicks st 60000), ?_⟩
      rw [hctx]
      rfl
    · have hctx : u.ctx m = s.ctx m := congrArg Station.ctx (hother m hm)
      exact ⟨st', by rw [hctx, hst'], ⟨rfl, rfl, rfl⟩, _, _, _, hctx⟩

/-! ### The lines' own events (R158 to R160) -/

theorem releaseStation_cohorts (g : Half) (count : Nat) (s : State) (a : Arrival) :
    (releaseStation g count s a).cohorts = s.cohorts := by
  unfold releaseStation
  simp

theorem releaseStation_line (g : Half) (count : Nat) (s : State) (a : Arrival) (l : Line) :
    (releaseStation g count s a).line l = s.line l := by
  unfold releaseStation
  cases l <;> simp [State.line]

/-- The release of a round leaves the lines and the other cohorts alone. -/
theorem releaseRound_frame (k : CohortId) (s : State) :
    (∀ l, (releaseRound k s).line l = s.line l) ∧ ∀ j, j ≠ k → (releaseRound k s).cohort j = s.cohort j := by
  unfold releaseRound
  dsimp only
  refine ⟨fun l => ?_, fun j hj => ?_⟩
  · rw [setCohort_line]
    exact foldl_keeps (fun t => t.line l) (fun t a => releaseStation_line _ _ t a l) _ s
  · rw [cohort_setCohort, if_neg hj]
    exact foldl_keeps (fun t => t.cohort j) (fun t a => congrArg (fun v => v.get j) (releaseStation_cohorts _ _ t a)) _ s

/-- Several rounds released in turn. -/
theorem foldl_releaseRound_spec (ks : List CohortId) (hn : ks.Nodup) (s : State) :
    let t := ks.foldl (fun u k => releaseRound k u) s
    (∀ l, t.line l = s.line l) ∧ (∀ k ∈ ks, t.cohort k = (s.cohort k).released) ∧
    ∀ j, j ∉ ks → t.cohort j = s.cohort j := by
  induction ks generalizing s with
  | nil => exact ⟨fun _ => rfl, nofun, fun _ _ => rfl⟩
  | cons k ks ih =>
    obtain ⟨hk, hn'⟩ := List.nodup_cons.mp hn
    obtain ⟨hline, hrel, hother⟩ := ih hn' (releaseRound k s)
    obtain ⟨gline, gother⟩ := releaseRound_frame k s
    refine ⟨fun l => (hline l).trans (gline l), fun j hj => ?_, fun j hj => ?_⟩
    · rcases List.mem_cons.mp hj with rfl | hj
      · exact (hother j hk).trans (releaseRound_cohort j s)
      · have hne : j ≠ k := fun he => hk (he ▸ hj)
        exact (hrel j hj).trans (by rw [gother j hne])
    · exact (hother j fun h => hj (List.mem_cons_of_mem _ h)).trans (gother j fun h => hj (h ▸ List.mem_cons_self))

theorem readyRounds_congr {s t : State} (h : t.cohorts = s.cohorts) (l : Line) : t.readyRounds l = s.readyRounds l := by
  unfold State.readyRounds State.cohort
  rw [h]

/-- A line at a release: HOLD unless it is OFF. -/
theorem holdLine_spec (l : Line) (s : State) :
    holdLine l s = { s with lineA := (holdLine l s).lineA, lineB := (holdLine l s).lineB } ∧
    ((holdLine l s).line l).riseDue = (s.line l).riseDue ∧
    ((s.line l).drive ≠ .off → ((holdLine l s).line l).drive = .hold ∧ ((holdLine l s).line l).hold = some 1250 ∧
      ((holdLine l s).line l).pin = (s.line l).others) := by
  unfold holdLine
  by_cases hd : (s.line l).drive = .off
  · rw [if_pos hd]
    exact ⟨rfl, rfl, fun h => absurd hd h⟩
  · rw [if_neg hd]
    obtain ⟨hdrive, hothers, hhold, _⟩ := setDrive_spec l .hold s
    refine ⟨by ext1 <;> simp, ?_, fun _ => ⟨hdrive, by rw [hhold]; rfl, by rw [pin_of _ hdrive, hothers]; simp⟩⟩
    unfold setDrive
    rw [line_setLine, if_pos rfl]

theorem line_setLine_self (s : State) (l : Line) (x : SyncLine) : (s.setLine l x).line l = x := by
  rw [line_setLine, if_pos rfl]

theorem setLine_frame (s : State) (l : Line) (x : SyncLine) :
    s.setLine l x = { s with lineA := (s.setLine l x).lineA, lineB := (s.setLine l x).lineB } := by
  cases l <;> rfl

/-- An accepted level is not changed by a new level of the pin, but in the first period. -/
theorem sense_accepted (s : State) (f : Filter) (level : Bool) (time : Nat) (h : s.time.firstPeriod = false) :
    (s.sense f level time).accepted = f.accepted := by
  rw [sense_eq]
  unfold filterLevel
  rw [h]
  simp

/-- Settles O60: the edges of a sync line, and the end of its hold. -/
theorem syncLineEdgesAndHold : Obligations.SyncLineEdgesAndHold := by
  intro s l
  refine ⟨fun hrise hact => ⟨syncRise l s, congrArg Host.Outcome.next (if_pos hrise), ?_⟩,
    fun hfall => ⟨_, congrArg Host.Outcome.next (if_pos hfall), ?_⟩, fun hd hh hfirst =>
      ⟨_, congrArg Host.Outcome.next (if_pos ?_), ?_⟩⟩
  · have hframe := setLine_frame s l { s.line l with riseDue := false }
    have hline := line_setLine_self s l { s.line l with riseDue := false }
    have hrise' : syncRise l s = if (s.setLine l { s.line l with riseDue := false }).active = true ∧
        (s.setLine l { s.line l with riseDue := false }).readyRounds l ≠ [] then
          ((s.setLine l { s.line l with riseDue := false }).readyRounds l).foldl (fun u k => releaseRound k u)
            (holdLine l (s.setLine l { s.line l with riseDue := false }))
        else s.setLine l { s.line l with riseDue := false } := rfl
    rw [hrise']
    generalize s.setLine l { s.line l with riseDue := false } = u at hframe hline ⊢
    have hready : u.readyRounds l = s.readyRounds l := readyRounds_congr (by rw [hframe]) l
    have hactu : u.active = true := by
      unfold State.active
      rw [hframe]
      simp [hact]
    rw [hready]
    by_cases hnil : s.readyRounds l = []
    · rw [if_neg fun h => h.2 hnil]
      exact ⟨fun _ => rfl, fun h => absurd hnil h, fun k hk => absurd (hnil.symm.trans hk) (by simp)⟩
    · rw [if_pos ⟨hactu, hnil⟩]
      obtain ⟨hhf, hhrise, hhold⟩ := holdLine_spec l u
      generalize holdLine l u = v at hhf hhrise hhold ⊢
      rw [hline] at hhrise hhold
      have hcoh : ∀ j, v.cohort j = s.cohort j := fun j => by rw [hhf, hframe]; rfl
      refine ⟨fun h => absurd h hnil, fun _ => ?_, fun k hk honce => ?_⟩
      · obtain ⟨gline, grel, _⟩ :=
          foldl_releaseRound_spec (s.readyRounds l) ((List.nodup_finRange 8).filter _) v
        refine ⟨by rw [gline, hhrise], fun hoff => by rw [gline]; exact hhold hoff, fun k hk => ?_⟩
        rw [grel k hk, hcoh]
      · rw [hk, List.foldl_cons, List.foldl_nil]
        have hrel : RoundReleased k (v.cohort k).arrived v (releaseRound k v) :=
          releaseRound_released (by rw [hcoh]; exact honce)
        rw [hcoh] at hrel
        have hst : ∀ m, v.st m = s.st m := st_congr (by rw [hhf, hframe])
        refine roundReleased_from hrel (by rw [hcoh]) (by rw [hcoh]) (by rw [hhf, hframe]; rfl) (by rw [hhf, hframe])
          (by rw [hhf, hframe]) (fun m c => by unfold State.chan; rw [hst]) fun m st hst' => ?_
        have hctx : v.ctx m = s.ctx m := congrArg Station.ctx (hst m)
        exact ⟨st, by rw [hctx, hst'], ⟨rfl, rfl, rfl⟩, _, _, _, hctx⟩
  · have hframe := setLine_frame s l { s.line l with fallDue := false }
    have hline := line_setLine_self s l { s.line l with fallDue := false }
    generalize s.setLine l { s.line l with fallDue := false } = u at hframe hline ⊢
    have hcond : u.releaseCondition l = s.releaseCondition l := releaseCondition_congr (by rw [hframe]) l
    have hcond' : (judgeLine l u).releaseCondition l = s.releaseCondition l := by
      rw [releaseCondition_congr (judgeLine_cohorts l u), hcond]
    have hfallen : ((judgeLine l u).line l).fallDue = false := by
      have hset : ∀ d, ((setDrive l d u).line l).fallDue = (u.line l).fallDue := fun d => by
        unfold setDrive
        rw [line_setLine, if_pos rfl]
      have hu : (u.line l).fallDue = false := by rw [hline]
      unfold judgeLine
      (repeat' split) <;> simp only [hset, hu]
    have hj := judgeLine_judged l u
    unfold LineJudged at hj
    rw [hcond', hline] at hj
    obtain ⟨hopen, _, hstay⟩ := hj
    refine ⟨by rw [judgeLine_stations, hframe], by rw [judgeLine_cohorts, hframe], hfallen, fun hd hc hf => hopen hd hc hf,
      fun hd hc => ?_, fun hd => ?_⟩
    · rw [hstay (Or.inr (Or.inr (Or.inr ⟨hd, Or.inl hc⟩)))]
      exact hd
    · rw [hstay (Or.inr (Or.inl hd))]
      exact hd
  · simp [syncHoldDue, hd, hh]
  · obtain ⟨hdrive, hothers, hhold, _⟩ := setDrive_spec l .pull s
    have hacc : ((setDrive l .pull s).line l).filter.accepted = (s.line l).filter.accepted := by
      unfold setDrive
      rw [line_setLine, if_pos rfl]
      exact sense_accepted _ _ _ _ hfirst
    have hcoh : (setDrive l .pull s).cohorts = s.cohorts := setDrive_cohorts ..
    have hsta : (setDrive l .pull s).stations = s.stations := setDrive_stations ..
    generalize setDrive l .pull s = u at hdrive hothers hhold hacc hcoh hsta ⊢
    have hcond : u.releaseCondition l = s.releaseCondition l := releaseCondition_congr hcoh l
    have hcond' : (judgeLine l u).releaseCondition l = s.releaseCondition l := by
      rw [releaseCondition_congr (judgeLine_cohorts l u), hcond]
    have hheld : ((judgeLine l u).line l).hold = none := by
      have hu : (u.line l).hold = none := by rw [hhold]; rfl
      have hopen : ((setDrive l .open u).line l).hold = none := (setDrive_spec l .open u).2.2.1
      unfold judgeLine
      rw [hdrive]
      dsimp only
      split
      · exact hopen
      · exact hu
    have hj := judgeLine_judged l u
    unfold LineJudged at hj
    rw [hcond', hdrive, hacc, hothers] at hj
    obtain ⟨hopen, _, hstay⟩ := hj
    refine ⟨by rw [judgeLine_stations, hsta], by rw [judgeLine_cohorts, hcoh], hheld, fun hc => ?_, fun hc hf => hopen rfl hc hf,
      fun hc hf => ?_⟩
    · rw [hstay (Or.inr (Or.inr (Or.inr ⟨rfl, Or.inl hc⟩)))]
      exact ⟨hdrive, by rw [pin_of _ hdrive]; simp⟩
    · rw [hstay (Or.inr (Or.inr (Or.inr ⟨rfl, Or.inr hf⟩)))]
      exact hdrive

end Sys2Proof.Proofs
end

section
/-! PROOFS. Which events are due, and that every command and every step goes on (log entries 1 to 3, 23, 31). -/

namespace Sys2Proof.Proofs

open Sys2Proof.Machine Sys2Proof.Laws

/-! ### The events that are due -/

/-- The condition of each event of the part's own blocks, the steps that wait to be taken aside. -/
def ownDue (s : State) : Instr → Bool
  | .msTick => s.time.tickDue
  | .sweepTimerExpiry => sweepTimerDue s
  | .completionTimeout tag => completionTimeoutDue s tag
  | .messageOffer => messageOfferDue s
  | .holdoffEnd => holdoffDue s
  | .quiesceComplete => quiesceDone s
  | .faultedToConfig => faultedLeaveDue s
  | .syncRise l => (s.line l).riseDue
  | .syncFall l => (s.line l).fallDue
  | .syncHoldEnd l => syncHoldDue s l
  | .filterAcceptance f => acceptanceDue s f
  | .measuredEdge u => !(s.unit u).inbox.isEmpty
  | .windowExpiry u => windowDue s u
  | .gateEnd u => gateDue s u
  | .retirement n => retirementDue s n
  | .discarded n => discardedDue s n
  | .pauseExpiry n => pauseExpiryDue s n
  | .breakBegin n => breakBeginDue s n
  | .breakEnd n => phaseDue s n .break
  | .delimiterEnd n => phaseDue s n .delimit
  | .querySent n => phaseDue s n .send
  | .bitError n => bitErrorDue s n
  | .answerStart n => answerStartDue s n
  | .answerByte n => (answerByteDue s n).isSome
  | .gapTimeout n => gapTimeoutDue s n
  | .noAnswer n => noAnswerDue s n
  | .recoverEnd n => recoverEndDue s n
  | .lineFaultEntry n => lineFaultEntryDue s n
  | .lineFaultEnd n => lineFaultEndDue s n
  | .attentionRecognition n => (s.st n).link.recog.isSome
  | .noAttention n => noAttentionDue s n
  | .delayEnd n c => phaseEnds s n c .delay
  | .pressWidthEnd n c => phaseEnds s n c .asserted
  | .tapOnEnd n c => phaseEnds s n c .tapOn
  | .periodBoundary n c => phaseEnds s n c .tapOff
  | .firstEvaluation n => firstEvaluationDue s n
  | .seatChange n => seatChangeDue s n
  | .supplyGoodRise n => goodRiseDue s n
  | .noSupplyGood n => noSupplyGoodDue s n
  | .tripAccepted n => tripDue s n
  | .lossOfSupplyGood n => lossDue s n
  | .noUnit n => noUnitDue s n
  | .collectTimeout n => collectTimeoutDue s n
  | .barrierTimeout n => barrierTimeoutDue s n
  | _ => false

theorem mem_dueIf {b : Bool} {i j : Instr} : i ∈ dueIf b j ↔ b = true ∧ i = j := by
  unfold dueIf
  cases b <;> simp

theorem mem_handedDue {s : State} {n : StationId} {i : Instr} :
    i ∈ handedDue s n ↔ ∃ st, s.handedStep n = some st ∧ st.op.command n = some i := by
  unfold handedDue
  cases s.handedStep n <;> simp

/-- The read whose timer has ended stands in the queue under its tag. -/
theorem mem_timeoutsDue {s : State} {i : Instr} :
    i ∈ timeoutsDue s ↔ ∃ tag, i = .completionTimeout tag ∧ completionTimeoutDue s tag = true := by
  unfold timeoutsDue
  rw [List.mem_flatMap]
  constructor
  · rintro ⟨e, _, hi⟩
    cases hr : e.sent with
    | none => simp [hr] at hi
    | some r =>
      rw [hr] at hi
      obtain ⟨hb, rfl⟩ := mem_dueIf.mp hi
      exact ⟨r.tag, rfl, hb⟩
  · rintro ⟨tag, rfl, hdue⟩
    cases he : s.sentRead tag with
    | none => simp [completionTimeoutDue, he] at hdue
    | some e =>
      have htag := List.find?_some he
      cases hr : e.sent with
      | none => simp [Entry.hasTag, hr] at htag
      | some r =>
        have ht : r.tag = tag := by simpa [Entry.hasTag, hr] using htag
        refine ⟨e, List.mem_of_find?_eq_some he, ?_⟩
        rw [hr]
        exact mem_dueIf.mpr ⟨by rw [ht, hdue], by rw [ht]⟩

/-- The due events are those whose own condition holds, and the steps that wait to be taken. -/
theorem mem_dueEvents {s : State} {i : Instr} :
    i ∈ dueEvents s ↔ ownDue s i = true ∨ ∃ n, i ∈ handedDue s n := by
  unfold dueEvents partDue stationDue sequencerDue linkDue channelDue supplyDue poolDue unitDue syncDue
  simp only [List.mem_append, List.mem_flatMap, mem_dueIf, mem_timeoutsDue, List.mem_finRange, true_and, exists_or]
  cases i <;> simp [ownDue]
  case filterAcceptance f =>
    rcases f with ⟨n, p⟩ | l
    · cases p <;> simp [or_comm]
    · cases l <;> simp [or_comm]
  case syncRise l | syncFall l | syncHoldEnd l => cases l <;> simp [or_comm]
  all_goals exact or_comm

theorem due_of_own {s : State} {i : Instr} (h : ownDue s i = true) : i ∈ dueEvents s := mem_dueEvents.mpr (Or.inl h)

/-- A step that waits is taken by a command of its own kind. -/
theorem command_some {op : StepOp} {n : StationId} {i : Instr} (h : op.command n = some i) : ¬FromOutside i := by
  cases op <;> cases h <;> exact id

theorem dueEvents_inside {s : State} {i : Instr} (h : i ∈ dueEvents s) : ¬FromOutside i := by
  rcases mem_dueEvents.mp h with hown | ⟨n, hh⟩
  · intro hout
    cases i
    case coldReset | softReset | startRequest | quiesce | leaveFaulted | syncUseSet | syncUseClear | sweepPeriod | sweep |
        attentionClear | noticeMaskWrite | registerWrite | sendEntry | readCompletion | probeEdge | inputChange =>
      exact absurd hown Bool.false_ne_true
    all_goals exact hout
  · obtain ⟨st, _, hc⟩ := mem_handedDue.mp hh
    exact command_some hc

/-! ### What a step takes (log entries 1 to 3) -/

/-- The step takes one of the due events. -/
theorem takeDue_takes (s : State) {l : List Instr} (h : l ≠ []) :
    ∃ e ∈ l, takeDue s l = exec e s ∨ takeDue s l = exec e { s with choices := s.choices + 1 } := by
  match l with
  | [] => exact absurd rfl h
  | [e] => exact ⟨e, List.mem_singleton_self e, Or.inl rfl⟩
  | e :: f :: rest =>
    have hlt : Config.eventChoice s.choices % (rest.length + 2) < (e :: f :: rest).length := Nat.mod_lt _ (by simp)
    refine ⟨_, List.getElem_mem hlt, Or.inr ?_⟩
    rw [← List.getD_eq_getElem _ e hlt]
    rfl

theorem postingTaken_of {s : State} {n : StationId} (hb : (s.ctx n).backlog = none)
    (hr : s.engine.inRoom (.outcome n) = false) : s.postingTaken n = true := by
  simp [State.postingTaken, hb, hr]

/-- The events of a station are due when their conditions hold. -/
theorem stationEvents_due (s : State) (n : StationId) :
    let c := s.ctx n
    let l := (s.st n).link
    let w := (s.st n).power
    (∀ ch, (s.chan n ch).timer = some 0 →
      ((s.chan n ch).state = .delay → .delayEnd n ch ∈ dueEvents s) ∧
      ((s.chan n ch).state = .asserted → .pressWidthEnd n ch ∈ dueEvents s) ∧
      ((s.chan n ch).state = .tapOn → .tapOnEnd n ch ∈ dueEvents s) ∧
      ((s.chan n ch).state = .tapOff → .periodBoundary n ch ∈ dueEvents s)) ∧
    (w.run = 20 → if w.evaluated then .seatChange n ∈ dueEvents s else .firstEvaluation n ∈ dueEvents s) ∧
    (w.supply = .ramping → (w.goodRise = true → .supplyGoodRise n ∈ dueEvents s) ∧
      (c.deadline = some 0 → .noSupplyGood n ∈ dueEvents s)) ∧
    (w.supply = .ramping ∨ w.supply = .on → w.tripRise = true → .tripAccepted n ∈ dueEvents s) ∧
    (w.supply = .on → w.loss = some 0 → .lossOfSupplyGood n ∈ dueEvents s) ∧
    ∀ p, ((s.st n).filter p).cand = some 0 → .filterAcceptance (.station n p) ∈ dueEvents s := by
  refine ⟨fun ch ht => ⟨fun h => ?_, fun h => ?_, fun h => ?_, fun h => ?_⟩, fun hr => ?_, fun hs => ⟨fun h => ?_, fun h => ?_⟩,
    fun hs h => ?_, fun hs h => ?_, fun p h => ?_⟩
  case refine_5 =>
    split
    · next he => exact due_of_own (by simp [ownDue, seatChangeDue, he, hr, Config.seatTicks])
    · next he => exact due_of_own (by simp [ownDue, firstEvaluationDue, he, hr, Config.seatTicks])
  case refine_8 =>
    refine due_of_own ?_
    rcases hs with hs | hs <;> simp [ownDue, tripDue, SupplyState.trips, hs, h]
  all_goals
    refine due_of_own ?_
    simp_all [ownDue, phaseEnds, goodRiseDue, noSupplyGoodDue, State.expired, lossDue, acceptanceDue, State.filter]

/-- The events of a station's sequencer and of its shared blocks' deadlines. -/
theorem sequencerEvents_due (s : State) (n : StationId) :
    let c := s.ctx n
    let taken := c.state = .posting ∧ c.backlog = none ∧ s.engine.inRoom (.outcome n) = false
    (∀ st i, s.handedStep n = some st → st.op.command n = some i → i ∈ dueEvents s) ∧
    (∀ st len, Flying s n st (.pause len) → c.deadline = some 0 → .pauseExpiry n ∈ dueEvents s) ∧
    (∀ st fresh, Flying s n st (.awaitAttention fresh) → c.deadline = some 0 → .noAttention n ∈ dueEvents s) ∧
    (∀ st slot, Flying s n st (.collect slot) → c.deadline = some 0 → .collectTimeout n ∈ dueEvents s) ∧
    (c.state = .waitingUnit → c.deadline = some 0 → .noUnit n ∈ dueEvents s) ∧
    (c.state = .atBarrier → c.deadline = some 0 → .barrierTimeout n ∈ dueEvents s) ∧
    (taken → c.posting = .skipped ∨ c.posting = .mismatch ∨ (∃ code flag disp, c.posting = .ordinary code flag disp) →
      .retirement n ∈ dueEvents s) ∧
    (∀ code disp, c.state = .posting → c.posting = .reported code disp → s.engine.inRoom (.partHalf n) = false →
      .retirement n ∈ dueEvents s) ∧
    (∀ last, taken → c.posting = .discard last → c.taken ≠ c.retired → .discarded n ∈ dueEvents s) := by
  dsimp only
  refine ⟨fun st i hst hc => mem_dueEvents.mpr (Or.inr ⟨n, mem_handedDue.mpr ⟨st, hst, hc⟩⟩), fun st len h hd => ?_,
    fun st fresh h hd => ?_, fun st slot h hd => ?_, fun hw hd => ?_, fun hb hd => ?_, fun ⟨hs, hb, hr⟩ hp => ?_,
    fun code disp hs hp hr => ?_, fun last ⟨hs, hb, hr⟩ hp hne => ?_⟩
  case refine_6 =>
    refine due_of_own ?_
    have ht := postingTaken_of hb hr
    show retirementDue s n = true
    unfold retirementDue
    rcases hp with hp | hp | ⟨code, flag, disp, hp⟩ <;>
    · rw [hs, hp]
      exact ht
  all_goals
    refine due_of_own ?_
  · simp [ownDue, pauseExpiryDue, h.1, h.2, State.expired, hd]
  · simp [ownDue, noAttentionDue, State.awaitsAttention, h.1, h.2, State.expired, hd]
  · simp [ownDue, collectTimeoutDue, State.collectSlot, h.1, h.2, State.expired, hd]
  · simp [ownDue, noUnitDue, hw, State.expired, hd]
  · simp [ownDue, barrierTimeoutDue, hb, State.expired, hd]
  · show retirementDue s n = true
    unfold retirementDue
    rw [hs, hp]
    simp [hr]
  · show discardedDue s n = true
    unfold discardedDue
    rw [hs, hp, postingTaken_of hb hr]
    simpa using hne

/-- The events of a station's probe link. -/
theorem linkEvents_due (s : State) (n : StationId) :
    let c := s.ctx n
    let l := (s.st n).link
    (l.waiting = true → l.state = .idle → l.high = true → l.recog = none → .breakBegin n ∈ dueEvents s) ∧
    (l.bitEnd = true →
      (l.mismatch = false → l.state = .break → .breakEnd n ∈ dueEvents s) ∧
      (l.mismatch = false → l.state = .delimit → .delimiterEnd n ∈ dueEvents s) ∧
      (l.mismatch = false → l.state = .send → .querySent n ∈ dueEvents s) ∧
      (l.mismatch = true → l.state = .break ∨ l.state = .delimit ∨ l.state = .send → .bitError n ∈ dueEvents s)) ∧
    (l.state = .awaitAnswer → l.startDue = true → .answerStart n ∈ dueEvents s) ∧
    (l.state = .awaitAnswer → c.deadline = some 0 → .noAnswer n ∈ dueEvents s) ∧
    (l.state = .receive → l.done ≠ none → .answerByte n ∈ dueEvents s) ∧
    (l.state = .receive → l.inByte = false → l.done = none → l.wait = some 0 → .gapTimeout n ∈ dueEvents s) ∧
    (l.recog.isSome = true → .attentionRecognition n ∈ dueEvents s) ∧
    (l.state = .recover → l.wait = some 0 → .recoverEnd n ∈ dueEvents s) ∧
    (l.mon.high = false → 625000 ≤ l.mon.age → l.state ≠ .lineFault → .lineFaultEntry n ∈ dueEvents s) ∧
    (l.mon.high = true → 25000 ≤ l.mon.age → l.state = .lineFault → .lineFaultEnd n ∈ dueEvents s) := by
  dsimp only
  refine ⟨fun hw hs hh hr => ?_, fun hb => ⟨fun hm hs => ?_, fun hm hs => ?_, fun hm hs => ?_, fun hm hs => ?_⟩, fun hs hd => ?_,
    fun hs hd => ?_, fun hs hd => ?_, fun hs hi hd hw => ?_, fun h => ?_, fun hs hw => ?_, fun hh ha hs => ?_, fun hh ha hs => ?_⟩
  all_goals
    refine due_of_own ?_
    dsimp only [ownDue]
  · simp [breakBeginDue, hw, hs, hh, hr]
  · simp [phaseDue, hb, hm, hs]
  · simp [phaseDue, hb, hm, hs]
  · simp [phaseDue, hb, hm, hs]
  · rcases hs with hs | hs | hs <;> simp [bitErrorDue, hb, hm, hs]
  · simp [answerStartDue, hs, hd]
  · simp [noAnswerDue, State.expired, hs, hd]
  · simpa [answerByteDue, hs, Option.isSome_iff_ne_none] using hd
  · simp [gapTimeoutDue, hs, hi, hd, hw]
  · exact h
  · simp [recoverEndDue, hs, hw]
  · simp [lineFaultEntryDue, Config.stuckPeriods, hh, ha, hs]
  · simp [lineFaultEndDue, Config.faultRestPeriods, hh, ha, hs]

/-- The events of the part's shared blocks. -/
theorem partEvents_due (s : State) :
    (.msTick ∈ dueEvents s ↔ s.time.tickDue = true) ∧
    (s.ctl.state = .active → s.sweep.timer = some 0 → .sweepTimerExpiry ∈ dueEvents s) ∧
    (s.notice.writer = .holdoff → s.notice.timer = some 0 → .holdoffEnd ∈ dueEvents s) ∧
    (s.notice.writer = .sending → s.notice.offered = false → s.engine.inRoom .noticeBlock = false →
      s.notice.awaitHeld = [] → s.ctl.state ≠ .config → .messageOffer ∈ dueEvents s) ∧
    (∀ e ∈ s.engine.queue, ∀ r, e.sent = some r → s.sentRead r.tag = some e → r.timer = 0 →
      .completionTimeout r.tag ∈ dueEvents s) ∧
    (s.ctl.state = .quiescing → (∀ n, (s.ctx n).state = .idle) → s.engine.queue = [] → s.engine.room = [] →
      (∀ n, s.engine.held.get n = none) → s.notice.writer ≠ .sending → .quiesceComplete ∈ dueEvents s) ∧
    (s.ctl.state = .faulted → s.ctl.leaving = true → writerClear s = true → .faultedToConfig ∈ dueEvents s) ∧
    (∀ l, ((s.line l).riseDue = true → .syncRise l ∈ dueEvents s) ∧ ((s.line l).fallDue = true → .syncFall l ∈ dueEvents s) ∧
      ((s.line l).drive = .hold → (s.line l).hold = some 0 → .syncHoldEnd l ∈ dueEvents s) ∧
      ((s.line l).filter.cand = some 0 → .filterAcceptance (.sync l) ∈ dueEvents s)) ∧
    ∀ u, ((s.unit u).inbox ≠ [] → .measuredEdge u ∈ dueEvents s) ∧
      ((s.unit u).window = some 0 → .windowExpiry u ∈ dueEvents s) ∧
      ((s.unit u).state = .running → (s.unit u).gate = some 0 → .gateEnd u ∈ dueEvents s) := by
  refine ⟨⟨fun h => ?_, due_of_own (i := .msTick)⟩, fun ha ht => ?_, fun hw ht => ?_, fun hw ho hr hh hc => ?_, fun e _ r hr he ht => ?_,
    fun hc hi hq hr hh hw => ?_, fun hc hl hw => ?_, fun l => ⟨due_of_own (i := .syncRise l), due_of_own (i := .syncFall l), fun hd hh => ?_, fun hf => ?_⟩,
    fun u => ⟨fun hi => ?_, fun hw => ?_, fun hr hg => ?_⟩⟩
  case refine_1 =>
    rcases mem_dueEvents.mp h with hown | ⟨n, hh⟩
    · exact hown
    · obtain ⟨st, _, hc⟩ := mem_handedDue.mp hh
      cases hop : st.op <;> rw [hop] at hc <;> cases hc
  all_goals
    refine due_of_own ?_
    dsimp only [ownDue]
  · simp [sweepTimerDue, State.active, ha, ht]
  · simp [holdoffDue, hw, ht]
  · simp [messageOfferDue, hw, ho, hr, hh, hc]
  · simp [completionTimeoutDue, he, hr, ht]
  · simp [quiesceDone, Engine.drained, hc, hi, hq, hr, hh, hw]
  · simp [faultedLeaveDue, hc, hl, hw]
  · simp [syncHoldDue, hd, hh]
  · simp [acceptanceDue, State.filter, hf]
  · simpa using hi
  · simp [windowDue, hw]
  · simp [gateDue, hr, hg]

/-- Settles O2: what a step takes on an empty queue, and which events are due. -/
theorem emptyQueueTakesDueEventOrPeriod : Obligations.EmptyQueueTakesDueEventOrPeriod := by
  refine ⟨fun s hp => ?_, fun s e he => dueEvents_inside he, fun s => ?_, fun s n => ?_⟩
  · have hstep : step s = takeDue s (dueEvents s) := by
      unfold step
      rw [hp]
    rw [hstep]
    refine ⟨fun h => by rw [h]; rfl, fun h => takeDue_takes s h⟩
  · exact partEvents_due s
  · obtain ⟨hchan, hseat, hramp, htrip, hloss, hfilter⟩ := stationEvents_due s n
    obtain ⟨hhanded, hpause, hatt, hcoll, harm, hbar, hret, hrep, hdis⟩ := sequencerEvents_due s n
    obtain ⟨hbreak, hphase, hstart, hnoans, hbyte, hgap, hrec, hrest, hentry, hend⟩ := linkEvents_due s n
    exact ⟨hhanded, hpause, hatt, hcoll, harm, hbar, hret, hrep, hdis, hbreak, hphase, hstart, hnoans, hbyte, hgap, hrec, hrest,
      hentry, hend, hchan, hseat, hramp, htrip, hloss, hfilter⟩

/-! ### Every command goes on (log entries 1 and 31) -/

/-- No command ends in a fault or a refusal. -/
theorem exec_goesOn (i : Instr) (s : State) : ∃ t, exec i s = .next t := by
  cases i
  case pause | note | setup | query | awaitAttention | press | tap | hold | lift | supply | arm | collect | barrier |
      readCompletion | answerByte | attentionRecognition =>
    simp only [exec, execPause, execNote, execSetup, execQuery, execAwaitAttention, execPress, execTap, execHold, execLift,
      execSupply, execArm, execCollect, execBarrier, execReadCompletion, execAnswerByte, execAttentionRecognition]
    (repeat' split) <;> exact ⟨_, rfl⟩
  all_goals exact ⟨_, rfl⟩

theorem step_goesOn (s : State) : ∃ t, step s = .next t := by
  unfold step
  split
  · exact exec_goesOn _ _
  · by_cases h : dueEvents s = []
    · rw [h]
      exact ⟨_, rfl⟩
    · obtain ⟨e, _, he | he⟩ := takeDue_takes s h <;> rw [he] <;> exact exec_goesOn _ _

/-- A command of the part's own events that is not due changes nothing. -/
theorem exec_of_notDue {i : Instr} {s : State} (hin : ¬FromOutside i) (h : i ∉ dueEvents s) : exec i s = .next s := by
  have hown : ¬ownDue s i = true := fun ho => h (due_of_own ho)
  have hhanded : ∀ n st, s.handedStep n = some st → st.op.command n ≠ some i := fun n st hst hc =>
    h (mem_dueEvents.mpr (Or.inr ⟨n, mem_handedDue.mpr ⟨st, hst, hc⟩⟩))
  cases i
  case coldReset | softReset | startRequest | quiesce | leaveFaulted | syncUseSet | syncUseClear | sweepPeriod | sweep |
      attentionClear | noticeMaskWrite | registerWrite | sendEntry | readCompletion | probeEdge | inputChange =>
    exact absurd trivial hin
  case pause n | note n | setup n | query n | awaitAttention n | press n | tap n | hold n | lift n | supply n | arm n |
      collect n | barrier n =>
    simp only [exec, execPause, execNote, execSetup, execQuery, execAwaitAttention, execPress, execTap, execHold, execLift,
      execSupply, execArm, execCollect, execBarrier]
    split
    · next st hst =>
      split
      · next hop => exact absurd (by rw [hop]; rfl) (hhanded n st hst)
      · rfl
    · rfl
  case measuredEdge u =>
    have hempty : (s.unit u).inbox = [] := by simpa [ownDue] using hown
    show execMeasuredEdge u s = _
    unfold execMeasuredEdge measuredEdge
    rw [hempty]
  case answerByte n =>
    have hnone : answerByteDue s n = none := by simpa [ownDue] using hown
    show execAnswerByte n s = _
    unfold execAnswerByte
    rw [hnone]
  case attentionRecognition n =>
    have hnone : (s.st n).link.recog = none := by simpa [ownDue] using hown
    show execAttentionRecognition n s = _
    unfold execAttentionRecognition
    rw [hnone]
  all_goals exact congrArg Host.Outcome.next (if_neg hown)

/-- Settles O3: every command and every step goes on, and a command that is not due changes nothing. -/
theorem everyCommandAndStepGoesOn : Obligations.EveryCommandAndStepGoesOn :=
  ⟨exec_goesOn, step_goesOn, fun _ _ => exec_of_notDue⟩

end Sys2Proof.Proofs
end

section
/-! PROOFS. The refutation of the sweep's effects on a station for arbitrary states: a station that is IDLE with a step in
flight is calm, but not any more once a halt has granted its wait. -/

namespace Sys2Proof.Proofs

open Sys2Proof.Machine Sys2Proof.Laws

namespace IdleWaiter

/-! No run reaches this state: station 1 is IDLE with an ARM in flight that waits for a unit, and the arrival of station 0
stands in a cohort that station 0 does not belong to. The stop of station 0 halts it, and its halt grants station 1's wait: its
step ends and it is IDLE no longer. The same sweep then disables station 1, whose departure completes the round of the arrival,
and its release pulse asserts the channel of the halted station 0. -/

/-- The settings of the waiting ARM. -/
def settings : ArmSettings :=
  { kind := .interval, start := .immediate, x := .seat, y := .seat, xEdge := .both, yEdge := .both, gating := .none, window := 1,
    gate := 100 }

/-- The ARM that an IDLE station has in flight. -/
def waitingArm : InFlight :=
  { op := .arm 0 settings, start := 0, noticeFlag := false, attached := false, disp := .continue, deadline := 0, handed := false }

/-- The host half of station 0: enabled, its stop count 1. -/
def stopping : List Byte := List.replicate 9 0#8 ++ [1#8] ++ List.replicate 6 0#8 ++ [1#8] ++ List.replicate 47 0#8

/-- The directory: every other station disabled. -/
def directory : List Byte := stopping ++ List.replicate 1472 0#8

/-- The sweep read that completes. -/
def sweepEntry : Entry :=
  { req := { kind := .sweepRead, addr := 0, length := 1536, bytes := [] },
    sent := some { tag := 0, timer := 1, got := directory } }

/-- The stations: 0 READY, 1 IDLE with a step in flight. -/
def stations : State :=
  (State.reset.setCtx 0 { Context.initial with state := .ready }).setCtx 1
    { Context.initial with step := some waitingArm, cohort := some 0 }

/-- The refuting state. -/
def state : State :=
  { stations.setCohort 0
      { Cohort.initial with live := [0, 1], arrived := [{ station := 0, channel := some 0, delay := 0, width := 1 }] } with
    ctl := { State.reset.ctl with state := .active },
    waitList := [{ station := 1, slot := 0, arm := settings, start := 0 }],
    engine := { State.reset.engine with queue := [sweepEntry] } }

theorem sweepArrives : SweepArrives state 0 1536 [] directory :=
  ⟨rfl, by decide +kernel, sweepEntry, _, by decide +kernel, rfl, rfl, rfl, by decide +kernel, by decide +kernel⟩

theorem othersCalm : OthersCalm state 0 directory := by
  have h : ∀ m : StationId, m ≠ 0 → (state.ctx m).state = .idle ∧ (observed directory m).enabled = false := by decide +kernel
  exact fun m hm => Or.inl (h m hm)

/-- The sweep asserts the channel of the station that it halts. -/
theorem swept_asserts {t : State} (ht : exec (.readCompletion 0 .success 1536 []) state = .next t) :
    (t.chan 0 0).state = .asserted := by
  have h : (match exec (.readCompletion 0 .success 1536 []) state with
      | .next t => (t.chan 0 0).state
      | _ => .idle) = .asserted := by decide +kernel
  rw [ht] at h
  exact h

end IdleWaiter

/-- Refutes O38: READY station 0 is stopped while the other stations are calm, and its channel does not rest afterwards. The
statement holds no hypothesis that an IDLE station has no step in flight, which an earlier part of the same sweep can end. -/
theorem not_sweepStopsResumesAndDisables : ¬ Obligations.SweepStopsResumesAndDisables := by
  unfold Obligations.SweepStopsResumesAndDisables
  intro h
  obtain ⟨_, hstop, _⟩ := h IdleWaiter.state 0 0 1536 [] IdleWaiter.directory IdleWaiter.sweepArrives
  obtain ⟨hready, _⟩ := hstop (Or.inr IdleWaiter.othersCalm) ⟨by decide +kernel, by decide +kernel, by decide +kernel⟩
    ⟨by decide +kernel, by decide +kernel, Or.inl (by decide +kernel)⟩
  obtain ⟨t, ht, ⟨_, _, _, _, _, _, _, hchan, _⟩, _⟩ := hready (by decide +kernel)
  have hidle : (t.chan 0 0).state = .idle := by
    rw [hchan 0]
    rfl
  rw [IdleWaiter.swept_asserts ht] at hidle
  exact absurd hidle (by decide)

end Sys2Proof.Proofs
end

section
/-! PROOFS. What an event of one station leaves of the others and of the notices; a station that enters HALTED, and the
departure that may complete a round of the others (R31, R141, R145, R155, R179). -/

namespace Sys2Proof.Proofs

open Sys2Proof.Machine Sys2Proof.Laws

/-! ### The notices of an event (R179, R180) -/

/-- The writer, its count, the mask, the attention bits and the pending flag stand. -/
structure NoticeSame (s t : State) : Prop where
  writer : t.notice.writer = s.notice.writer
  count : t.notice.count = s.notice.count
  mask : t.notice.mask = s.notice.mask
  attention : t.notice.attention = s.notice.attention
  pending : t.notice.pending = s.notice.pending

theorem NoticeSame.refl (s : State) : NoticeSame s s := ⟨rfl, rfl, rfl, rfl, rfl⟩

theorem NoticeSame.trans {s t u : State} (h : NoticeSame s t) (k : NoticeSame t u) : NoticeSame s u :=
  ⟨k.writer.trans h.writer, k.count.trans h.count, k.mask.trans h.mask, k.attention.trans h.attention, k.pending.trans h.pending⟩

theorem NoticeSame.of_await {s t u : State} (h : NoticeSame s t)
    (hu : u.notice = { t.notice with awaitHeld := u.notice.awaitHeld }) : NoticeSame s u := by
  constructor <;> rw [hu]
  exacts [h.writer, h.count, h.mask, h.attention, h.pending]

/-- What sets no attention bit leaves the notices. -/
theorem noticeSame_kept (s : State) : KeptByShared (NoticeSame s) where
  contents h _ _ _ _ := h.of_await rfl
  line h _ := h.of_await (by simp)
  offer h hr := h.of_await (by rw [offer_notice _ _ hr])
  partHalf h n _ := h.of_await (queuePartHalf_notice n _)
  withdraw h _ _ := h.of_await rfl

theorem noticeSame_setAttention {s t : State} (h : NoticeSame s t) (i : Nat) :
    NoticeSame (setAttention i s) (setAttention i t) := by
  obtain ⟨h1, h2, h3, h4, h5⟩ := h
  unfold setAttention
  rw [h4]
  split
  · exact ⟨h1, h2, h3, h4, h5⟩
  · exact ⟨h1, h2, h3, rfl, by dsimp only; rw [h3, h5]⟩

/-- A bit that is set already is set again without effect. -/
theorem setAttention_again (i : Nat) {t : State} (h : t.notice.attention.getLsbD i = true) : setAttention i t = t := if_pos h

/-- The event has set at most the attention bit of station `n`. -/
def NoticeAt (n : StationId) (s t : State) : Prop := NoticeSame s t ∨ NoticeSame (setAttention n.1 s) t

theorem attention_of_noticeSame {n : StationId} {s t : State} (h : NoticeSame (setAttention n.1 s) t) :
    t.notice.attention.getLsbD n.1 = true := by
  rw [h.attention]
  exact setAttention_getLsbD_self s (by omega)

theorem noticeAt_setAttention {n : StationId} {s t : State} (h : NoticeAt n s t) :
    NoticeSame (setAttention n.1 s) (setAttention n.1 t) := by
  rcases h with h | h
  · exact noticeSame_setAttention h _
  · rw [setAttention_again _ (attention_of_noticeSame h)]
    exact h

/-- An event that has set the bit of a station, and ends with the begin of the send that is due. -/
theorem noticeFollows_noticeKick {n : StationId} {s u : State} (h : NoticeSame (setAttention n.1 s) u) :
    NoticeFollows n s (noticeKick u) :=
  noticeFollows_of h.pending (h.writer.trans (setAttention_writer _ _)) (h.count.trans (setAttention_count _ _))

theorem noticeAsked_of_follows {i : Nat} {s t : State} (h : NoticeFollows i s t) : NoticeAsked i s t := by
  obtain ⟨hsends, hno⟩ := h
  intro hbit hmask
  refine ⟨fun hw hm => hsends ⟨Or.inr ⟨hbit, hmask⟩, hw, hm⟩, fun hor => ?_⟩
  refine ((hno fun ⟨_, hw, hm⟩ => ?_).2.2).mpr (Or.inr ⟨hbit, hmask⟩)
  exact hor.elim (fun h => h hw) (fun h => h hm)

/-! ### What an event of one station leaves of the others -/

theorem onlyInbox_trans {x y z : MeasUnit} (h : OnlyInbox x y) (k : OnlyInbox y z) : OnlyInbox x z := by
  unfold OnlyInbox at h k ⊢
  rw [k, h]

theorem onlyInbox_binding {x y : MeasUnit} (h : OnlyInbox x y) : y.binding = x.binding := by
  unfold OnlyInbox at h
  rw [h]

/-- The other stations, the cohorts, the lines, the clock, Part Control and the requests that the others have offered stand;
a unit that is not bound to the station has at most further edges to take. -/
structure OthersKept (n : StationId) (s t : State) : Prop where
  st : ∀ m, m ≠ n → t.st m = s.st m
  busy : ∀ m, m ≠ n → t.engine.ownBusy m = s.engine.ownBusy m
  cohorts : t.cohorts = s.cohorts
  line : ∀ l, t.line l = s.line l
  fixed : fixed t = fixed s
  units : ∀ u, (s.unit u).binding.map Prod.fst ≠ some n → OnlyInbox (s.unit u) (t.unit u)
  waitList : s.waitList = [] → t.waitList = []
  requests : ∀ q : Request, (∀ m, q.kind ≠ .partHalf m ∧ q.kind ≠ .fetch m) → RequestWaits q s → RequestWaits q t

namespace OthersKept

variable {n : StationId} {s t u : State}

theorem refl (s : State) : OthersKept n s s :=
  ⟨fun _ _ => rfl, fun _ _ => rfl, rfl, fun _ => rfl, rfl, fun _ _ => rfl, id, fun _ _ => id⟩

theorem trans (h : OthersKept n s t) (k : OthersKept n t u) : OthersKept n s u where
  st m hm := (k.st m hm).trans (h.st m hm)
  busy m hm := (k.busy m hm).trans (h.busy m hm)
  cohorts := k.cohorts.trans h.cohorts
  line l := (k.line l).trans (h.line l)
  fixed := k.fixed.trans h.fixed
  units v hv := by
    have hb := onlyInbox_binding (h.units v hv)
    exact onlyInbox_trans (h.units v hv) (k.units v (by rw [hb]; exact hv))
  waitList hw := k.waitList (h.waitList hw)
  requests q hq hr := k.requests q hq (h.requests q hq hr)

theorem ctl (h : OthersKept n s t) : t.ctl = s.ctl := ctl_of_fixed h.fixed

theorem now (h : OthersKept n s t) : t.now = s.now := by
  unfold State.now
  rw [time_of_fixed h.fixed]

theorem cohort (h : OthersKept n s t) (k : CohortId) : t.cohort k = s.cohort k := by
  unfold State.cohort
  rw [h.cohorts]

theorem ctx (h : OthersKept n s t) {m : StationId} (hm : m ≠ n) : t.ctx m = s.ctx m := congrArg Station.ctx (h.st m hm)

/-- A change of the station itself. -/
theorem setSt (s : State) (n : StationId) (x : Station) : OthersKept n s (s.setSt n x) where
  st _ hm := (onlyStation_setSt s n x).2 _ hm
  busy _ _ := rfl
  cohorts := rfl
  line _ := by simp
  fixed := by simp
  units _ _ := rfl
  waitList := id
  requests _ _ := id

theorem setCtx (s : State) (n : StationId) (x : Context) : OthersKept n s (s.setCtx n x) := setSt ..

theorem setPower (s : State) (n : StationId) (x : Power) : OthersKept n s (s.setPower n x) := setSt ..

theorem setLink (s : State) (n : StationId) (x : Link) : OthersKept n s (s.setLink n x) := setSt ..

theorem queuePartHalf (s : State) (n m : StationId) : OthersKept n s (queuePartHalf m s) where
  st _ _ := st_congr (by simp) _
  busy _ _ := queuePartHalf_ownBusy ..
  cohorts := by simp
  line l := by cases l <;> simp [State.line]
  fixed := by simp
  units v _ := by
    unfold OnlyInbox State.unit
    simp
  waitList hw := by simpa using hw
  requests _ hq := fun h => (requestWaits_kept hq).partHalf h m trivial

theorem setAttention (s : State) (n : StationId) (i : Nat) : OthersKept n s (setAttention i s) where
  st _ _ := st_congr (by simp) _
  busy _ _ := by simp
  cohorts := by simp
  line l := by cases l <;> simp [State.line]
  fixed := by simp
  units v _ := by
    unfold OnlyInbox State.unit
    simp
  waitList hw := by simpa using hw
  requests _ _ hr := by
    unfold RequestWaits at hr ⊢
    simpa using hr

theorem noticeKick (s : State) (n : StationId) : OthersKept n s (noticeKick s) where
  st _ _ := st_congr (by simp) _
  busy m _ := by
    by_cases h : SendDue s
    · rw [(noticeKick_of_due h).2.1]
      exact offered_ownBusy _ _ _ nofun nofun
    · rw [noticeKick_of_not h]
  cohorts := by simp
  line l := by cases l <;> simp [State.line]
  fixed := by simp
  units v _ := by
    unfold OnlyInbox State.unit
    simp
  waitList hw := by simpa using hw
  requests _ hq := (requestWaits_kept hq).kick

/-- A change of the station and of the edges that units have to take. -/
theorem of_onlyStationUnits (h : OnlyStationUnits n s t) (he : t.engine = s.engine)
    (hu : ∀ u, (s.unit u).binding.map Prod.fst ≠ some n → OnlyInbox (s.unit u) (t.unit u)) : OthersKept n s t where
  st := h.2
  busy _ _ := by rw [he]
  cohorts := by rw [h.1]
  line l := by
    rw [h.1]
    cases l <;> rfl
  fixed := by rw [h.1]; rfl
  units := hu
  waitList hw := by rw [h.1]; exact hw
  requests _ _ hr := by
    unfold RequestWaits
    rw [he]
    exact hr

theorem withdraw (s : State) (n : StationId) :
    OthersKept n s { s with engine := { s.engine with room := s.engine.room.filter fun r => r.kind != .fetch n } } where
  st _ _ := rfl
  busy m hm := by
    simp only [Engine.ownBusy, Engine.inQueue, Engine.inRoom]
    have hany : ∀ k : ReqKind, k ≠ .fetch n →
        ((s.engine.room.filter fun r => r.kind != .fetch n).any fun r => r.kind == k) = s.engine.room.any fun r => r.kind == k := by
      intro k hk
      rw [List.any_filter]
      refine List.any_congr rfl fun r => ?_
      by_cases hr : r.kind = k
      · simp [hr, hk]
      · simp [hr]
    rw [hany (.fetch m) (by simpa using hm), hany (.outcome m) nofun]
  cohorts := rfl
  line l := by cases l <;> rfl
  fixed := rfl
  units _ _ := rfl
  waitList := id
  requests _ hq := fun h => (requestWaits_kept hq).withdraw h n trivial

end OthersKept

theorem setChan_onlyInbox (n : StationId) (c : ChannelId) (x : Channel) (s : State) (u : UnitId) :
    OnlyInbox (s.unit u) ((setChan n c x s).unit u) := by
  obtain ⟨_, _, _, hedge⟩ := setChan_spec n c x s
  unfold OutputEdge at hedge
  split at hedge
  · exact onlyInbox_of_unitsSee hedge u
  · unfold OnlyInbox State.unit
    rw [hedge]

theorem liftAll_onlyInbox (n : StationId) (s : State) (u : UnitId) : OnlyInbox (s.unit u) ((liftAll n s).unit u) := by
  unfold liftAll liftChan
  exact foldl_keeps_prop (P := fun t => OnlyInbox (s.unit u) (t.unit u)) (f := fun t c => setChan n c Channel.initial t)
    (fun c h => onlyInbox_trans h (setChan_onlyInbox ..)) _ rfl

theorem othersKept_liftAll (n : StationId) (s : State) : OthersKept n s (liftAll n s) :=
  have h := (liftAll_spec n s).1
  .of_onlyStationUnits h.only h.engine fun u _ => liftAll_onlyInbox n s u

theorem abandonUnits_unit (n : StationId) (s : State) (u : UnitId) :
    (abandonUnits n s).unit u = if (s.unit u).binding.map Prod.fst = some n then MeasUnit.initial else s.unit u := get_map ..

theorem othersKept_abandonUnits (n : StationId) (s : State) : OthersKept n s (abandonUnits n s) where
  st _ _ := rfl
  busy _ _ := rfl
  cohorts := rfl
  line l := by cases l <;> rfl
  fixed := rfl
  units u hu := by
    unfold OnlyInbox
    rw [abandonUnits_unit, if_neg hu]
  waitList hw := by
    show s.waitList.filter _ = []
    rw [hw]
    rfl
  requests _ _ := id

/-! ### What an event of others leaves of a station -/

/-- A release acts on its arrivals alone. -/
theorem releaseStation_untouched (g : Half) (count : Nat) (s : State) (a : Arrival) :
    (∀ m, m ≠ a.station → (releaseStation g count s a).st m = s.st m) ∧
    (∀ u, ((releaseStation g count s a).unit u).binding = (s.unit u).binding) ∧
    (releaseStation g count s a).waitList = s.waitList := by
  obtain ⟨hother, _, hunit⟩ := releaseStation_spec g count s a
  refine ⟨fun m hm => (hother m hm).1, fun u => ?_, by unfold releaseStation; simp⟩
  have hu := hunit u
  unfold UnitReleased at hu
  rw [hu]
  split <;> rfl

theorem releaseRound_untouched (k : CohortId) (s : State) :
    (∀ m, (∀ a ∈ (s.cohort k).arrived, a.station ≠ m) → (releaseRound k s).st m = s.st m) ∧
    (∀ u, ((releaseRound k s).unit u).binding = (s.unit u).binding) ∧ (releaseRound k s).waitList = s.waitList := by
  unfold releaseRound
  dsimp only
  generalize (s.cohort k).generation = g
  generalize (s.cohort k).arrived.length = count
  generalize (s.cohort k).arrived = l
  have h : ∀ (l : List Arrival) (t : State),
      (∀ m, (∀ a ∈ l, a.station ≠ m) → (l.foldl (releaseStation g count) t).st m = t.st m) ∧
      (∀ u, ((l.foldl (releaseStation g count) t).unit u).binding = (t.unit u).binding) ∧
      (l.foldl (releaseStation g count) t).waitList = t.waitList := by
    intro l
    induction l with
    | nil => exact fun t => ⟨fun _ _ => rfl, fun _ => rfl, rfl⟩
    | cons a l ih =>
      intro t
      obtain ⟨h1, h2, h3⟩ := releaseStation_untouched g count t a
      obtain ⟨k1, k2, k3⟩ := ih (releaseStation g count t a)
      refine ⟨fun m hm => ?_, fun u => (k2 u).trans (h2 u), k3.trans h3⟩
      exact (k1 m fun b hb => hm b (List.mem_cons_of_mem _ hb)).trans (h1 m (Ne.symm (hm a List.mem_cons_self)))
  exact h l s

/-- The examination of a round releases it or sets its cohort, and judges the lines. -/
theorem settleCohort_cases (k : CohortId) (s : State) :
    ∃ v, settleCohort k s = judgeLine .b (judgeLine .a v) ∧ (v = releaseRound k s ∨ ∃ x, v = s.setCohort k x) := by
  unfold settleCohort
  refine ⟨_, rfl, ?_⟩
  (repeat' split)
  · exact Or.inr ⟨_, rfl⟩
  · exact Or.inl rfl
  · exact Or.inr ⟨_, (setCohort_self s k).symm⟩
  · exact Or.inr ⟨_, rfl⟩

theorem settleCohort_untouched (k : CohortId) (s : State) :
    (∀ m, (∀ a ∈ (s.cohort k).arrived, a.station ≠ m) → (settleCohort k s).st m = s.st m) ∧
    (∀ u, ((settleCohort k s).unit u).binding = (s.unit u).binding) ∧ (settleCohort k s).waitList = s.waitList := by
  obtain ⟨v, hv, hcases⟩ := settleCohort_cases k s
  have hjudge : (∀ m, (settleCohort k s).st m = v.st m) ∧ (∀ u, (settleCohort k s).unit u = v.unit u) ∧
      (settleCohort k s).waitList = v.waitList := by
    rw [hv]
    exact ⟨st_congr (by simp), fun u => by unfold State.unit; simp, by simp⟩
  obtain ⟨j1, j2, j3⟩ := hjudge
  rcases hcases with rfl | ⟨x, rfl⟩
  · obtain ⟨h1, h2, h3⟩ := releaseRound_untouched k s
    exact ⟨fun m hm => (j1 m).trans (h1 m hm), fun u => (congrArg MeasUnit.binding (j2 u)).trans (h2 u), j3.trans h3⟩
  · exact ⟨fun m _ => j1 m, fun u => congrArg MeasUnit.binding (j2 u), j3⟩

/-- A station that leaves its cohort is left alone by the release that its departure may bring. -/
theorem leaveLive_untouched (n : StationId) (s : State) :
    (leaveLive n s).st n = s.st n ∧ (∀ u, ((leaveLive n s).unit u).binding = (s.unit u).binding) ∧
    (leaveLive n s).waitList = s.waitList := by
  unfold leaveLive
  split
  · exact ⟨rfl, fun _ => rfl, rfl⟩
  · next k _ =>
    split
    · obtain ⟨h1, h2, h3⟩ := settleCohort_untouched k (s.setCohort k ((s.cohort k).dropLive n))
      refine ⟨h1 n fun a ha => ?_, h2, h3⟩
      rw [cohort_setCohort, if_pos rfl] at ha
      simpa using (List.mem_filter.mp ha).2
    · exact ⟨rfl, fun _ => rfl, rfl⟩

/-- The arbiter grants to the stations that wait alone. -/
theorem arbitrate_untouched {n : StationId} {s : State} (hw : ∀ e ∈ s.waitList, e.station ≠ n)
    (hu : ∀ u slot, (s.unit u).binding ≠ some (n, slot)) :
    (arbitrate s).st n = s.st n ∧ (∀ e ∈ (arbitrate s).waitList, e.station ≠ n) ∧
    ∀ u slot, ((arbitrate s).unit u).binding ≠ some (n, slot) := by
  unfold arbitrate
  refine foldl_keeps_prop (P := fun t => t.st n = s.st n ∧ (∀ e ∈ t.waitList, e.station ≠ n) ∧
    ∀ u slot, (t.unit u).binding ≠ some (n, slot)) (f := arbitrateUnit) (fun {t} u ht => ?_) _ ⟨rfl, hw, hu⟩
  obtain ⟨h1, h2, h3⟩ := ht
  unfold arbitrateUnit
  split
  · split
    · exact ⟨h1, h2, h3⟩
    · next e rest hl =>
      have he : e.station ≠ n := h2 e (by rw [hl]; exact List.mem_cons_self)
      have hrest : ∀ x ∈ rest, x.station ≠ n := fun x hx => h2 x (by rw [hl]; exact List.mem_cons_of_mem _ hx)
      unfold grantUnit
      refine ⟨?_, ?_, fun v slot => ?_⟩
      · rw [endStep_st_ne _ (Ne.symm he)]
        exact h1
      · rw [endStep_waitList]
        exact hrest
      · rw [endStep_unit]
        by_cases hv : v = u
        · rw [hv]
          unfold bindUnit
          rw [unit_setUnit, if_pos rfl, (boundUnit_spec _ _ _ _).1]
          exact fun hc => he (congrArg Prod.fst (Option.some.inj hc))
        · rw [bindUnit_unit_ne hv]
          exact h3 v slot
  · exact ⟨h1, h2, h3⟩

/-! ### HALTED (R31) -/

/-- All that HALTED means but the notice that its entry asks for. -/
def HaltedNow (n : StationId) (r : HaltReason) (t : State) : Prop :=
  ((t.ctx n).state = .halted ∧ (t.ctx n).halt = r ∧ (t.ctx n).skipDebt = 0 ∧ (t.ctx n).badMark = false ∧
    (t.ctx n).step = none ∧ (t.ctx n).deadline = none ∧ (t.ctx n).pendingHalt = none) ∧
  (∀ c, t.chan n c = Channel.initial) ∧ (∀ u slot, (t.unit u).binding ≠ some (n, slot)) ∧
  (∀ w ∈ t.waitList, w.station ≠ n) ∧ OutOfCohort n t ∧ t.notice.attention.getLsbD n = true ∧
  PartHalfReports n (ShowsPartHalf n t) t

theorem hasHalted_of {n : StationId} {r : HaltReason} {s t : State} (h : HaltedNow n r t) (k : NoticeAsked n s t) :
    HasHalted n r s t := by
  obtain ⟨⟨h1, h2, h3, h4, h5, h6, h7⟩, hc, hu, hw, ho, ha, hp⟩ := h
  exact ⟨h1, h2, h3, h4, h5, h6, h7, hc, hu, hw, ho, ha, k, hp⟩

/-- The state in which a station that enters HALTED has let go of its channels, its units and its wait. -/
def released (n : StationId) (r : HaltReason) (s : State) : State :=
  abandonUnits n (liftAll n (s.setCtx n { s.ctx n with
    state := .halted, halt := r, deadline := none, skipDebt := 0, badMark := false, step := none, posting := .none,
    backlog := none, pendingHalt := none }))

theorem enterHalted_eq (n : StationId) (r : HaltReason) (s : State) :
    enterHalted n r s = queuePartHalf n (setAttention n.1 (leaveLive n (arbitrate (released n r s)))) := rfl

theorem released_spec (n : StationId) (r : HaltReason) (s : State) :
    (released n r s).ctx n = { s.ctx n with
      state := .halted, halt := r, deadline := none, skipDebt := 0, badMark := false, step := none, posting := .none,
      backlog := none, pendingHalt := none } ∧
    (∀ c, (released n r s).chan n c = Channel.initial) ∧ (∀ u slot, ((released n r s).unit u).binding ≠ some (n, slot)) ∧
    (∀ w ∈ (released n r s).waitList, w.station ≠ n) ∧ OthersKept n s (released n r s) := by
  unfold released
  generalize hc : ({ s.ctx n with
    state := .halted, halt := r, deadline := none, skipDebt := 0, badMark := false, step := none, posting := .none,
    backlog := none, pendingHalt := none } : Context) = c
  have hctx : (liftAll n (s.setCtx n c)).ctx n = c := (liftAll_ctx n n _).trans (setCtx_ctx_self s n c)
  have hchan := (liftAll_spec n (s.setCtx n c)).2
  have hkept := (OthersKept.setCtx s n c).trans (othersKept_liftAll n _)
  generalize liftAll n (s.setCtx n c) = p at hctx hchan hkept ⊢
  refine ⟨hctx, hchan, fun u slot => ?_, fun w hw => ?_, hkept.trans (othersKept_abandonUnits n _)⟩
  · rw [abandonUnits_unit]
    split
    · exact nofun
    · next h => exact fun hb => h (by rw [hb]; rfl)
  · simpa using (List.mem_filter.mp hw).2

/-- A station that enters HALTED. -/
theorem enterHalted_haltedNow (n : StationId) (r : HaltReason) (s : State) : HaltedNow n r (enterHalted n r s) := by
  have hctx := enterHalted_ctx n r s
  obtain ⟨hrctx, hchan, hunit, hwait, _⟩ := released_spec n r s
  rw [enterHalted_eq] at hctx ⊢
  generalize released n r s = p at hrctx hchan hunit hwait hctx ⊢
  obtain ⟨ast, await, aunit⟩ := arbitrate_untouched hwait hunit
  generalize arbitrate p = q at ast await aunit hctx ⊢
  have hstep : (q.ctx n).step = none := by
    rw [State.ctx, ast]
    exact (congrArg Context.step hrctx).trans rfl
  obtain ⟨lst, lunit, lwait⟩ := leaveLive_untouched n q
  have hout := leaveLive_outOfCohort hstep
  generalize leaveLive n q = w at lst lunit lwait hout hctx ⊢
  have hcohort : ∀ k, (queuePartHalf n (setAttention n.1 w)).cohort k = w.cohort k := fun k => by
    unfold State.cohort
    simp
  have hctxw : (queuePartHalf n (setAttention n.1 w)).ctx n = w.ctx n := by rw [queuePartHalf_ctx, setAttention_ctx]
  have hstw : (queuePartHalf n (setAttention n.1 w)).st n = w.st n := by simp
  refine ⟨by rw [hctx]; exact ⟨rfl, rfl, rfl, rfl, rfl, rfl, rfl⟩, fun c => ?_, fun u slot => ?_, fun x hx => ?_, ?_, ?_,
    queuePartHalf_shows n _⟩
  · unfold State.chan
    rw [hstw, lst, ast]
    exact hchan c
  · have hu : (queuePartHalf n (setAttention n.1 w)).unit u = w.unit u := by
      unfold State.unit
      simp
    rw [hu, lunit]
    exact aunit u slot
  · refine await x ?_
    rw [← lwait]
    simpa using hx
  · intro k hk
    rw [hcohort]
    exact hout k (by rw [← hctxw]; exact hk)
  · rw [queuePartHalf_attention]
    exact setAttention_getLsbD_self w (by omega)

theorem enterHalted_noticeSame (n : StationId) (r : HaltReason) (s : State) :
    NoticeSame (setAttention n.1 s) (enterHalted n r s) := by
  rw [enterHalted_eq]
  have K := noticeSame_kept s
  have h : NoticeSame s (leaveLive n (arbitrate (released n r s))) :=
    K.leaveLive (K.arbitrate (K.abandonUnits (K.liftAll (K.setCtx (NoticeSame.refl s)))))
  exact (noticeSame_setAttention h n.1).of_await (queuePartHalf_notice _ _)

/-- The begin of a send leaves a halted station halted. -/
theorem haltedNow_noticeKick {n : StationId} {r : HaltReason} {t : State} (h : HaltedNow n r t) : HaltedNow n r (noticeKick t) := by
  obtain ⟨hctx, hc, hu, hw, ho, ha, hp⟩ := h
  have hk : ∀ k, (noticeKick t).cohort k = t.cohort k := fun k => by
    unfold State.cohort
    simp
  have hv : ∀ u, (noticeKick t).unit u = t.unit u := fun u => by
    unfold State.unit
    simp
  refine ⟨?_, fun c => ?_, fun u slot => by rw [hv]; exact hu u slot, fun w hm => hw w (by simpa using hm), fun k hkk => ?_,
    by rw [noticeKick_attention]; exact ha, shows_noticeKick hp⟩
  · rw [noticeKick_ctx]
    exact hctx
  · unfold State.chan
    rw [noticeKick_st]
    exact hc c
  · rw [hk]
    rw [noticeKick_ctx] at hkk
    exact ho k hkk

/-! ### A departure (R148, R149, R155) -/

theorem arrivalsReleased_from {k : CohortId} {l : List Arrival} {s u t : State} (h : ArrivalsReleased k l u t)
    (hg : (u.cohort k).generation = (s.cohort k).generation) (hn : u.now = s.now)
    (hst : ∀ a ∈ l, u.st a.station = s.st a.station ∧ u.engine.ownBusy a.station = s.engine.ownBusy a.station) :
    ArrivalsReleased k l s t := by
  intro a ha st hstep
  obtain ⟨hsa, hba⟩ := hst a ha
  have hctx : u.ctx a.station = s.ctx a.station := congrArg Station.ctx hsa
  obtain ⟨hends, hpulse⟩ := h a ha st (by rw [hctx, hstep])
  rw [releaseCode_congr hsa, hg, hn] at hends
  refine ⟨stepEndsAmid_of_same hends ⟨rfl, rfl, rfl⟩ ⟨_, _, _, hctx⟩ hn hba, fun c hc hi => hpulse c hc ?_⟩
  unfold State.chan
  rw [hsa]
  exact hi

/-- A live station that leaves its cohort, after changes that concern it alone. -/
theorem leaveLive_departs {n : StationId} {s p : State} (h : OthersKept n s p) (hc : (p.ctx n).cohort = (s.ctx n).cohort) :
    DepartureTaken n s (leaveLive n p) := by
  intro k hk hlive hna hwait x left hne hall
  have hx : p.cohort k = x := h.cohort k
  have hdrop : (p.cohort k).dropLive n = left := by
    rw [hx]
    have harr : x.arrived.filter (fun a => a.station != n) = x.arrived :=
      List.filter_eq_self.mpr fun a ha => by simpa using hna k a ha
    show Cohort.mk _ (x.arrived.filter fun a => a.station != n) _ _ _ = _
    rw [harr]
    rfl
  have heq : leaveLive n p = settleCohort k (p.setCohort k left) := by
    unfold leaveLive
    rw [hc, hk]
    dsimp only
    rw [if_pos (by rw [hx]; simp [Cohort.holds, show n ∈ x.live from hlive]), hdrop]
  have hleft : (p.setCohort k left).cohort k = left := by rw [cohort_setCohort, if_pos rfl]
  have hcomplete : left.complete = true := by
    rw [complete_iff]
    intro m
    refine Iff.trans ?_ (hall m)
    show m ∈ x.live.filter (· != n) ↔ _
    rw [List.mem_filter]
    simp
  rw [heq]
  refine ⟨fun hb hact honce => ?_, fun l hb => ?_⟩
  · have hrel : RoundReleased k left.arrived (p.setCohort k left) (releaseRound k (p.setCohort k left)) := by
      have := releaseRound_released (k := k) (s := p.setCohort k left) (by rw [hleft]; exact honce)
      rwa [hleft] at this
    rw [settleCohort_released (by rw [hleft]; exact hne) (by rw [hleft]; exact hb) (by rw [hleft]; exact hcomplete)
      (by rw [setCohort_ctl, h.ctl]; exact hact)]
    obtain ⟨hcoh, harr, hunit⟩ := roundReleased_congr (v := judgeLine .b (judgeLine .a (releaseRound k (p.setCohort k left)))) hrel
      (by simp) (by simp) (by simp) (by simp) (by simp)
    refine ⟨by rw [hcoh, hleft], arrivalsReleased_from harr (by rw [hleft]) h.now fun a ha => ?_, fun u hu => ?_⟩
    · have han := hna k a ha
      exact ⟨h.st _ han, h.busy _ han⟩
    · have hur := hunit u
      have hin : OnlyInbox (s.unit u) ((p.setCohort k left).unit u) := h.units u hu
      have hn : (p.setCohort k left).now = s.now := h.now
      unfold UnitReleased at hur ⊢
      unfold OnlyInbox at hin
      rw [hin, hn] at hur
      rw [hur]
      split <;> rfl
  · obtain ⟨_, hck, _, hline⟩ := settleCohort_spec (k := k) (s := p.setCohort k left)
      (Or.inr (Or.inl (by rw [hleft]; exact fun hn => by rw [show left.binding = x.binding from rfl, hb] at hn; cases hn)))
    refine ⟨?_, lineJudged_congr (hline l) ?_ rfl rfl⟩
    · rw [hck, hleft]
      unfold Cohort.settled
      rw [if_neg hne, if_neg (show left.binding ≠ none by rw [show left.binding = x.binding from rfl, hb]; nofun), hcomplete]
    · rw [setCohort_line, h.line]

/-- Later changes that concern the departed station alone. -/
theorem departureTaken_kept {n : StationId} {s t v : State} (h : DepartureTaken n s t) (k : OthersKept n t v) :
    DepartureTaken n s v := by
  intro c hk hlive hna hwait x left hne hall
  obtain ⟨hrel, hbound⟩ := h c hk hlive hna hwait hne hall
  refine ⟨fun hb hact honce => ?_, fun l hb => ?_⟩
  · obtain ⟨hcoh, harr, hunit⟩ := hrel hb hact honce
    refine ⟨by rw [k.cohort, hcoh], fun a ha st hst => ?_, fun u hu => ?_⟩
    · have han := hna c a ha
      obtain ⟨⟨hctx, hoff⟩, hpulse⟩ := harr a ha st hst
      refine ⟨⟨by rw [k.ctx han, hctx], ?_⟩, fun ch hc hi => ?_⟩
      · intro ht
        have ht' : TakesWrites t := by
          unfold TakesWrites at ht ⊢
          rwa [← k.ctl]
        have hwr : ∀ bytes, outcomeWrite v a.station bytes = outcomeWrite t a.station bytes := fun bytes => by
          unfold outcomeWrite
          rw [k.ctx han]
        unfold OutcomeQueued
        rw [k.ctx han, hwr]
        exact (hoff ht').imp id (k.requests _ fun m => ⟨nofun, nofun⟩)
      · unfold State.chan
        rw [k.st _ han]
        exact hpulse ch hc hi
    · have hur := hunit u hu
      unfold UnitReleased at hur ⊢
      have hb : (t.unit u).binding = (s.unit u).binding := by
        rw [hur]
        split <;> rfl
      have hin := k.units u (by rw [hb]; exact hu)
      unfold OnlyInbox at hin
      rw [hin, hur]
  · obtain ⟨hcoh, hline⟩ := hbound l hb
    exact ⟨by rw [k.cohort, hcoh], lineJudged_congr hline rfl (k.line l) k.cohorts⟩

/-- A station that enters HALTED departs from its cohort. -/
theorem enterHalted_departs {n : StationId} {r : HaltReason} {s u : State} (h : OthersKept n s u)
    (hc : (u.ctx n).cohort = (s.ctx n).cohort) : DepartureTaken n s (enterHalted n r u) := by
  intro k hk hlive hna hwait
  obtain ⟨hrctx, _, _, _, hkept⟩ := released_spec n r u
  have hp := h.trans hkept
  have hnil : arbitrate (released n r u) = released n r u := arbitrate_nil (hp.waitList hwait)
  have hd : DepartureTaken n s (leaveLive n (released n r u)) := leaveLive_departs hp (by rw [hrctx]; exact hc)
  rw [enterHalted_eq, hnil]
  exact departureTaken_kept hd ((OthersKept.setAttention _ n _).trans (.queuePartHalf _ n n)) k hk hlive hna hwait

/-- The event that ends with a station's halt. -/
theorem enterHalted_halts {n : StationId} {r : HaltReason} {s u : State} (hnotice : NoticeAt n s u) :
    HasHalted n r s (noticeKick (enterHalted n r u)) ∧ NoticeFollows n s (noticeKick (enterHalted n r u)) := by
  have hsame : NoticeSame (setAttention n.1 s) (enterHalted n r u) :=
    (noticeAt_setAttention hnotice).trans (enterHalted_noticeSame n r u)
  have hfollows := noticeFollows_noticeKick hsame
  exact ⟨hasHalted_of (haltedNow_noticeKick (enterHalted_haltedNow n r u)) (noticeAsked_of_follows hfollows), hfollows⟩

theorem enterHalted_departs_noticeKick {n : StationId} {r : HaltReason} {s u : State} (h : OthersKept n s u)
    (hc : (u.ctx n).cohort = (s.ctx n).cohort) : DepartureTaken n s (noticeKick (enterHalted n r u)) :=
  departureTaken_kept (enterHalted_departs h hc) (.noticeKick _ n)

end Sys2Proof.Proofs
end

section
/-! PROOFS. A read that faults, and the fetch phase that ends without a dispatch (R23, R31, R170 to R172). -/

namespace Sys2Proof.Proofs

open Sys2Proof.Machine Sys2Proof.Laws

/-! ### A read that is freed (R166, R170) -/

theorem noticeSame_refill (s : State) : NoticeSame s (refill s) := by
  unfold refill take
  split
  · exact .refl s
  · split
    · exact ⟨rfl, rfl, rfl, rfl, rfl⟩
    · exact .refl s

/-- The head of the room wait list that enters the queue is still the station's own request (R165). -/
theorem refill_ownBusy (s : State) (m : StationId) : (refill s).engine.ownBusy m = s.engine.ownBusy m := by
  rcases refill_engine s with he | ⟨r, rest, hr, _, he⟩
  · rw [he]
  · rw [he, Bool.eq_iff_iff]
    simp only [Engine.ownBusy, Engine.inQueue, Engine.inRoom, hr, List.any_append, List.any_cons, List.any_nil, Bool.or_eq_true]
    grind

theorem requestWaits_refill {q : Request} {s : State} (h : RequestWaits q s) : RequestWaits q (refill s) := by
  unfold RequestWaits at h ⊢
  rcases refill_engine s with he | ⟨r, rest, hr, _, he⟩
  · rwa [he]
  · rw [he]
    rw [hr] at h
    rcases h with h | h
    · exact Or.inl (List.mem_append_left _ h)
    · rcases List.mem_cons.mp h with rfl | h
      · exact Or.inl (List.mem_append_right _ (List.mem_singleton_self _))
      · exact Or.inr h

theorem othersKept_refill (n : StationId) (s : State) : OthersKept n s (refill s) where
  st _ _ := st_congr (by simp) _
  busy m _ := refill_ownBusy s m
  cohorts := by simp
  line l := by cases l <;> simp [State.line]
  fixed := by simp
  units v _ := by
    unfold OnlyInbox State.unit
    simp
  waitList hw := by simpa using hw
  requests _ _ := requestWaits_refill

/-- The sent reads with a tag leave the queue. -/
theorem othersKept_dropTag {n : StationId} {tag : Nat} {s : State}
    (h : ∀ x ∈ s.engine.queue, x.hasTag tag = true → x.req.kind = .fetch n) :
    OthersKept n s { s with engine := { s.engine with queue := s.engine.queue.filter fun e => !e.hasTag tag } } where
  st _ _ := rfl
  busy m hm := by
    have hany : ∀ k : ReqKind, k ≠ .fetch n → ((s.engine.queue.filter fun e => !e.hasTag tag).any fun x => x.req.kind == k) =
        s.engine.queue.any fun x => x.req.kind == k := by
      intro k hk
      rw [Bool.eq_iff_iff]
      simp only [List.any_eq_true, List.mem_filter, beq_iff_eq, Bool.not_eq_true']
      constructor
      · rintro ⟨x, ⟨hx, _⟩, hxk⟩
        exact ⟨x, hx, hxk⟩
      · rintro ⟨x, hx, hxk⟩
        refine ⟨x, ⟨hx, Bool.eq_false_iff.mpr fun ht => hk ?_⟩, hxk⟩
        rw [← hxk, h x hx ht]
    simp only [Engine.ownBusy, Engine.inQueue]
    rw [hany (.fetch m) (by simpa using hm), hany (.outcome m) nofun]
    rfl
  cohorts := rfl
  line l := by cases l <;> rfl
  fixed := rfl
  units _ _ := rfl
  waitList := id
  requests q _ hr := hr.imp (fun hq => List.mem_filter.mpr ⟨hq, rfl⟩) id

theorem othersKept_freeRead {n : StationId} {tag : Nat} {s : State}
    (h : ∀ x ∈ s.engine.queue, x.hasTag tag = true → x.req.kind = .fetch n) : OthersKept n s (freeRead tag s) :=
  (othersKept_dropTag h).trans (othersKept_refill n _)

theorem noticeSame_freeRead (tag : Nat) (s : State) : NoticeSame s (freeRead tag s) :=
  (show NoticeSame s { s with engine := { s.engine with queue := s.engine.queue.filter fun e => !e.hasTag tag } } from
    ⟨rfl, rfl, rfl, rfl, rfl⟩).trans (noticeSame_refill _)

/-- A fault of a sent read, by a completion or by its timer. -/
theorem exec_of_readFaults {s : State} {tag : Nat} {e : Entry} {r : SentRead} {i : Instr} (he : s.sentRead tag = some e)
    (hr : e.sent = some r) (h : ReadFaults i tag e r) : exec i s = .next (readFaulted e.req.kind (freeRead tag s)) := by
  have hcomplete : ∀ status first data, completionFaults e.req r.got status first data = true →
      exec (.readCompletion tag status first data) s = .next (readFaulted e.req.kind (freeRead tag s)) := by
    intro status first data hf
    show execReadCompletion tag status first data s = _
    unfold execReadCompletion
    rw [he]
    dsimp only
    unfold completeRead
    rw [hr]
    exact congrArg Host.Outcome.next (if_pos hf)
  rcases h with ⟨rfl, ht⟩ | ⟨first, data, rfl | rfl⟩ | ⟨first, data, rfl, hbad⟩
  · have hdue : completionTimeoutDue s tag = true := by
      unfold completionTimeoutDue
      rw [he]
      dsimp only
      rw [hr]
      simp [ht]
    refine congrArg Host.Outcome.next ((if_pos hdue).trans ?_)
    unfold completionTimeout
    rw [he]
  · exact hcomplete _ _ _ rfl
  · exact hcomplete _ _ _ rfl
  · refine hcomplete _ _ _ ?_
    unfold completionFaults
    rcases hbad with hb | hb
    · simp [hb]
    · simp [hb]

/-! ### The end of a fetch phase (R23, R33, R39) -/

/-- A fetch phase that ends without a dispatch and without a disable in progress. -/
theorem fetchFailed_halts {n : StationId} {s : State} (hd : (s.ctx n).disabling = false) :
    fetchFailed n s = enterHalted n ((s.ctx n).pendingHalt.getD .memoryFault)
      (s.setCtx n { s.ctx n with taken := (s.ctx n).taken - 1 }) := by
  unfold fetchFailed
  dsimp only
  rw [hd]
  exact if_neg Bool.false_ne_true

/-- Settles O29: a faulted fetch read halts its station. -/
theorem faultedFetchHaltsStation : Obligations.FaultedFetchHaltsStation := by
  intro s n tag e r he hr hk hs hd hp _ i hi
  have hctx := freeRead_ctx tag s n
  have heq : readFaulted e.req.kind (freeRead tag s) = noticeKick (enterHalted n .memoryFault
      ((freeRead tag s).setCtx n { s.ctx n with taken := (s.ctx n).taken - 1 })) := by
    rw [hk]
    show noticeKick (fetchEnded n (freeRead tag s)) = _
    unfold fetchEnded
    rw [if_pos (by rw [hctx, hs]), fetchFailed_halts (by rw [hctx, hd]), hctx, hp]
    rfl
  refine ⟨_, exec_of_readFaults he hr hi, ?_⟩
  rw [heq]
  obtain ⟨hhalt, _⟩ := enterHalted_halts (n := n) (r := .memoryFault) (s := s)
    (u := (freeRead tag s).setCtx n { s.ctx n with taken := (s.ctx n).taken - 1 })
    (Or.inl ((noticeSame_freeRead tag s).trans ⟨rfl, rfl, rfl, rfl, rfl⟩))
  refine ⟨hhalt, ?_, fun honly => ?_, ?_, ?_⟩
  · rw [noticeKick_ctx, enterHalted_ctx, setCtx_ctx_self]
  · exact enterHalted_departs_noticeKick ((othersKept_freeRead honly).trans (.setCtx _ n _)) (by rw [setCtx_ctx_self])
  · rw [noticeKick_ctx, enterHalted_ctx, setCtx_ctx_self]
  · rw [noticeKick_ctx, enterHalted_ctx, setCtx_ctx_self]

end Sys2Proof.Proofs
end

section
/-! PROOFS. Retirement and the discard range: the part half, the class, and the way out of POSTING (R20 to R22, R28 to R30,
R35). -/

namespace Sys2Proof.Proofs

open Sys2Proof.Machine Sys2Proof.Laws

/-! ### The notice of an event that may halt its station -/

namespace NoticeAt

variable {n : StationId} {s t u : State}

theorem trans (h : NoticeAt n s u) (k : NoticeSame u t) : NoticeAt n s t := h.imp (·.trans k) (·.trans k)

theorem setCtx (h : NoticeAt n s u) (x : Context) : NoticeAt n s (u.setCtx n x) := h.trans ⟨rfl, rfl, rfl, rfl, rfl⟩

theorem setAttention (h : NoticeAt n s u) : NoticeAt n s (setAttention n.1 u) := Or.inr (noticeAt_setAttention h)

/-- Where the bit had been set already, the event has set no other. -/
theorem same (h : NoticeAt n (Machine.setAttention n.1 s) u) : NoticeSame (Machine.setAttention n.1 s) u := by
  rcases h with h | h
  · exact h
  · rwa [setAttention_again _ (setAttention_getLsbD_self s (by omega))] at h

end NoticeAt

/-- The acts of a station set no other attention bit. -/
theorem noticeAt_kept (n : StationId) (s : State) : KeptByHalts (· = n) (NoticeAt n s) where
  setSt h _ := h.trans ⟨rfl, rfl, rfl, rfl, rfl⟩
  edge {t _ _ _} h _ := h.trans ((noticeSame_kept t).emitEdge (.refl t))
  offer {t _} h hr := h.trans ((noticeSame_kept t).offer (.refl t) hr)
  partHalf {t _} h _ := h.trans ((noticeSame_kept t).partHalf (.refl t) _ trivial)
  withdraw h _ := h.trans ⟨rfl, rfl, rfl, rfl, rfl⟩
  abandonUnits h _ := h.trans ⟨rfl, rfl, rfl, rfl, rfl⟩
  abandonCollect {t _ _} h _ := h.trans ((noticeSame_kept t).abandonCollect (.refl t))
  leaveList h _ := h.trans ⟨rfl, rfl, rfl, rfl, rfl⟩
  arbitrate {t} h := h.trans ((noticeSame_kept t).arbitrate (.refl t))
  joinLive {t _} h _ := h.trans ((noticeSame_kept t).joinLive (.refl t))
  leaveLive {t _} h _ := h.trans ((noticeSame_kept t).leaveLive (.refl t))
  leaveArrived {t _} h _ := h.trans ((noticeSame_kept t).leaveArrived (.refl t))
  attention h hn := by
    subst hn
    exact h.setAttention

/-! ### The wait of the part-half write (R28) -/

/-- Whether the part-half write that a posting queues waits for room. -/
theorem reportWaits_iff (n : StationId) (u : State) :
    (queuePartHalf n u).engine.inRoom (.partHalf n) = true ↔ ReportWaits u n := by
  have hroom : (∃ r ∈ u.engine.room, r.kind = .partHalf n) ↔ u.engine.inRoom (.partHalf n) = true := by
    unfold Engine.inRoom
    simp
  unfold ReportWaits
  rw [hroom]
  by_cases ht : TakesWrites u
  · rw [queuePartHalf_on ht]
    split
    · next hin =>
      refine iff_of_true ?_ (Or.inl hin)
      obtain ⟨r, hr, hk⟩ := hroom.mpr hin
      exact List.any_eq_true.mpr ⟨_, List.mem_map_of_mem hr, by unfold replaceBytes; split <;> simp [hk]⟩
    · next hin =>
      split
      · next hq =>
        have hno : ¬∀ e ∈ u.engine.queue, e.req.kind ≠ .partHalf n := by
          obtain ⟨e, he, hk⟩ := List.any_eq_true.mp hq
          exact fun hall => hall e he (by simpa using hk)
        split <;> exact iff_of_false hin (not_or.mpr ⟨hin, fun ⟨_, hall, _⟩ => hno hall⟩)
      · next hq =>
        have hall : ∀ e ∈ u.engine.queue, e.req.kind ≠ .partHalf n := fun e he hk =>
          hq (List.any_eq_true.mpr ⟨e, he, by simp [hk]⟩)
        have hadm : admits u.ctl.state (.partHalf n) = true := by rcases ht with h | h <;> rw [h] <;> rfl
        rw [offer_engine]
        unfold engineOffered
        rw [if_pos (show admits u.ctl.state (partHalfRequest u n).kind = true from hadm)]
        split
        · next hfree =>
          refine iff_of_false hin (not_or.mpr ⟨hin, fun ⟨_, _, h⟩ => ?_⟩)
          exact h.elim (fun h => by omega) (fun h => h hfree.2)
        · next hfull =>
          refine iff_of_true ?_ (Or.inr ⟨ht, hall, ?_⟩)
          · simp [Engine.inRoom, partHalfRequest]
          · by_cases hr : u.engine.room = []
            · exact Or.inl (Nat.le_of_not_lt fun h => hfull ⟨h, hr⟩)
            · exact Or.inr hr
  · rw [queuePartHalf_off ht]
    exact ⟨Or.inl, fun h => h.resolve_right fun h => ht h.1⟩

/-! ### The next record (R20 to R22) -/

theorem fetchable_eq_zero_iff (x : Context) : x.fetchable = 0 ↔ x.lastRead = x.taken := by
  unfold Context.fetchable
  constructor
  · intro h
    bv_omega
  · intro h
    rw [h]
    simp

theorem takeNext_ready {n : StationId} {u : State} (h : (u.ctx n).lastRead = (u.ctx n).taken) :
    takeNext n u = u.setCtx n { u.ctx n with state := .ready, posting := .none } :=
  if_pos ((fetchable_eq_zero_iff _).mpr h)

theorem takeNext_fetch {n : StationId} {u : State} (h : (u.ctx n).lastRead ≠ (u.ctx n).taken) (hd : (u.ctx n).skipDebt = 0) :
    takeNext n u = startFetch n u :=
  (if_neg fun k => h ((fetchable_eq_zero_iff _).mp k)).trans (if_pos hd)

theorem takeNext_skip {n : StationId} {u : State} (h : (u.ctx n).lastRead ≠ (u.ctx n).taken) (hd : (u.ctx n).skipDebt ≠ 0) :
    takeNext n u = startSkip n u :=
  (if_neg fun k => h ((fetchable_eq_zero_iff _).mp k)).trans (if_neg hd)

/-- The station has left POSTING with context `c` for the next record, or for READY (R20, R30). -/
def MovedOn (n : StationId) (c : Context) (t : State) : Prop :=
  let d := t.ctx n
  NextOffered n t ∧ d.retired = c.retired ∧ d.lastRun = c.lastRun ∧ d.skipDebt = c.skipDebt ∧ d.halt = c.halt ∧
  (c.lastRead = c.taken → d.state = .ready ∧ d.taken = c.taken) ∧
  (c.lastRead ≠ c.taken → c.skipDebt = 0 → d.state = .fetching ∧ d.taken = c.taken + 1) ∧
  (c.lastRead ≠ c.taken → c.skipDebt ≠ 0 → d.state = .posting ∧ d.posting = .skipped ∧ d.taken = c.taken + 1)

theorem fetchOffered_noticeKick {n : StationId} {s : State} (h : FetchOffered n s) : FetchOffered n (noticeKick s) := by
  unfold FetchOffered fetchRead at h ⊢
  rw [noticeKick_ctx]
  exact h.imp id requestWaits_noticeKick

theorem nextOffered_noticeKick {n : StationId} {s : State} (h : NextOffered n s) : NextOffered n (noticeKick s) := by
  obtain ⟨hf, hp⟩ := h
  unfold NextOffered
  rw [noticeKick_ctx, noticeKick_now]
  exact ⟨fun hs => fetchOffered_noticeKick (hf hs), fun hs hk => outcomeOffered_noticeKick (hp hs hk)⟩

/-- A station that goes on where the part takes its read, or needs none. -/
theorem takeNext_movedOn {n : StationId} {u : State}
    (h : u.ctl.state = .active ∨ (u.ctx n).lastRead = (u.ctx n).taken ∨ (u.ctx n).skipDebt ≠ 0) :
    MovedOn n (u.ctx n) (takeNext n u) := by
  by_cases hr : (u.ctx n).lastRead = (u.ctx n).taken
  · rw [takeNext_ready hr]
    unfold MovedOn NextOffered
    rw [setCtx_ctx_self]
    exact ⟨⟨nofun, nofun⟩, rfl, rfl, rfl, rfl, fun _ => ⟨rfl, rfl⟩, fun k => absurd hr k, fun k => absurd hr k⟩
  · by_cases hd : (u.ctx n).skipDebt = 0
    · have hact : u.ctl.state = .active := h.resolve_right fun k => k.elim hr fun k => k hd
      rw [takeNext_fetch hr hd]
      unfold startFetch
      generalize hx : ({ u.ctx n with state := .fetching, posting := .none, taken := (u.ctx n).taken + 1 } : Context) = x
      have hctx : ((u.setCtx n x).ctx n) = x := setCtx_ctx_self ..
      rw [offerFetch_active (by exact hact)]
      have hoff : FetchOffered n (stationOffer n .fetch (u.setCtx n x)) := stationOffer_fetch n (by exact hact)
      unfold MovedOn NextOffered
      obtain ⟨b, hb⟩ : ∃ b, (stationOffer n .fetch (u.setCtx n x)).ctx n = { x with backlog := b } := by
        rw [stationOffer_ctx, if_pos rfl, hctx]
        exact ⟨_, rfl⟩
      rw [hb]
      subst hx
      exact ⟨⟨fun _ => hoff, nofun⟩, rfl, rfl, rfl, rfl, fun k => absurd k hr, fun _ _ => ⟨rfl, rfl⟩, fun _ k => absurd hd k⟩
    · rw [takeNext_skip hr hd]
      unfold startSkip
      generalize hx : ({ u.ctx n with state := .posting, posting := .skipped, taken := (u.ctx n).taken + 1 } : Context) = x
      have hctx : ((u.setCtx n x).ctx n) = x := setCtx_ctx_self ..
      generalize hbytes : outcomeBytes .skipped (u.ctx n).retired u.now u.now [] = bytes
      have hoff := stationOffer_outcome n bytes (u.setCtx n x)
      have hnow : (stationOffer n (.outcome bytes) (u.setCtx n x)).now = u.now := by simp [State.now]
      unfold MovedOn NextOffered
      obtain ⟨b, hb⟩ : ∃ b, (stationOffer n (.outcome bytes) (u.setCtx n x)).ctx n = { x with backlog := b } := by
        rw [stationOffer_ctx, if_pos rfl, hctx]
        exact ⟨_, rfl⟩
      rw [hb, hnow]
      subst hx
      dsimp only
      rw [hbytes]
      exact ⟨⟨nofun, fun _ _ => hoff⟩, rfl, rfl, rfl, rfl, fun k => absurd k hr, fun _ k => absurd k hd,
        fun _ _ => ⟨rfl, rfl, rfl⟩⟩

theorem movedOn_noticeKick {n : StationId} {c : Context} {t : State} (h : MovedOn n c t) : MovedOn n c (noticeKick t) := by
  unfold MovedOn at h ⊢
  rw [noticeKick_ctx]
  exact ⟨nextOffered_noticeKick h.1, h.2⟩

/-! ### The way out of POSTING (R28 to R30) -/

/-- What the retirement of a posted record has done before its station leaves POSTING: its retired count and its skip debt are
taken, and nothing but its attention bit and its part-half write besides. -/
structure PostingDone (n : StationId) (retired : Half) (debt : Nat) (s u : State) : Prop where
  ctx : u.ctx n = { s.ctx n with retired := retired, skipDebt := debt }
  others : OthersKept n s u
  notice : NoticeAt n s u

namespace PostingDone

variable {n : StationId} {retired : Half} {debt : Nat} {s u : State}

theorem cohort (h : PostingDone n retired debt s u) : (u.ctx n).cohort = (s.ctx n).cohort := by rw [h.ctx]

theorem setDebt (h : PostingDone n retired debt s u) (d : Nat) :
    PostingDone n retired d s (u.setCtx n { u.ctx n with skipDebt := d }) where
  ctx := by rw [setCtx_ctx_self, h.ctx]
  others := h.others.trans (.setCtx _ n _)
  notice := h.notice.setCtx _

/-- A disable in progress takes the station to IDLE. -/
theorem arrives (h : PostingDone n retired debt s u) (hs : (s.ctx n).state = .posting) (hd : (s.ctx n).disabling = true) :
    let t := noticeKick (leavePosting n u)
    HasArrivedIdle n t ∧ (t.ctx n).halt = .none ∧ (t.ctx n).retired = retired ∧ (t.ctx n).posting = .none := by
  have heq : leavePosting n u = arriveIdle n u := if_pos (by rw [h.ctx]; exact hd)
  dsimp only
  rw [heq]
  refine ⟨arrivedIdle_noticeKick (arriveIdle_arrived n u), ?_, ?_, ?_⟩ <;> rw [noticeKick_ctx, arriveIdle_ctx, h.ctx]
  exact if_neg (by rw [hs]; nofun)

/-- A halt, whatever reason it has. -/
theorem enterHalted (h : PostingDone n retired debt s u) (r : HaltReason) :
    let t := noticeKick (enterHalted n r u)
    HasHalted n r s t ∧ DepartureTaken n s t ∧ (t.ctx n).retired = retired ∧ (t.ctx n).posting = .none := by
  refine ⟨(enterHalted_halts h.notice).1, enterHalted_departs_noticeKick h.others h.cohort, ?_, ?_⟩ <;>
    rw [noticeKick_ctx, enterHalted_ctx, h.ctx]

/-- A halt in progress, or one that the posting itself leads to. -/
theorem halts (h : PostingDone n retired debt s u) (hd : (s.ctx n).disabling = false) {r : HaltReason}
    (hr : (s.ctx n).pendingHalt.or (s.ctx n).posting.halts = some r) :
    let t := noticeKick (leavePosting n u)
    HasHalted n r s t ∧ DepartureTaken n s t ∧ (t.ctx n).retired = retired ∧ (t.ctx n).posting = .none := by
  have heq : leavePosting n u = Machine.enterHalted n r u := by
    unfold leavePosting
    dsimp only
    rw [h.ctx]
    dsimp only
    rw [if_neg (by rw [hd]; exact Bool.false_ne_true), hr]
  dsimp only
  rw [heq]
  exact h.enterHalted r

/-- An undisturbed station leaves for the next record, unless a handover count has failed. -/
theorem leaves (h : PostingDone n retired debt s u) (hd : (s.ctx n).disabling = false)
    (hr : (s.ctx n).pendingHalt.or (s.ctx n).posting.halts = none) :
    leavePosting n u = if (s.ctx n).badMark then Machine.enterHalted n .badHandover u else takeNext n u := by
  unfold leavePosting
  dsimp only
  rw [h.ctx]
  dsimp only
  rw [if_neg (by rw [hd]; exact Bool.false_ne_true), hr]

/-- A failed handover count halts the station. -/
theorem haltsBad (h : PostingDone n retired debt s u) (hd : (s.ctx n).disabling = false)
    (hr : (s.ctx n).pendingHalt.or (s.ctx n).posting.halts = none) (hb : (s.ctx n).badMark = true) :
    let t := noticeKick (leavePosting n u)
    HasHalted n .badHandover s t ∧ DepartureTaken n s t ∧ (t.ctx n).retired = retired ∧ (t.ctx n).posting = .none := by
  dsimp only
  rw [h.leaves hd hr, if_pos hb]
  exact h.enterHalted _

/-- The station goes on with the next record. -/
theorem movesOn (h : PostingDone n retired debt s u) (hd : (s.ctx n).disabling = false)
    (hr : (s.ctx n).pendingHalt.or (s.ctx n).posting.halts = none) (hb : (s.ctx n).badMark = false)
    (hmay : s.ctl.state = .active ∨ (s.ctx n).lastRead = (s.ctx n).taken ∨ debt ≠ 0) :
    MovedOn n { s.ctx n with retired := retired, skipDebt := debt } (noticeKick (leavePosting n u)) := by
  rw [h.leaves hd hr, if_neg (by rw [hb]; exact Bool.false_ne_true), ← h.ctx]
  exact movedOn_noticeKick (takeNext_movedOn (by rw [h.others.ctl, h.ctx]; exact hmay))

end PostingDone

/-! ### Retirement (R28, R29) -/

/-- The retired count of a posting that has ended. -/
def retiredAfter (c : Context) : Half :=
  match c.posting with
  | .ordinary _ _ _ | .skipped => c.retired + 1
  | .none | .mismatch | .discard _ | .reported _ _ => c.retired

/-- The skip debt with which a posting leaves POSTING. -/
def debtOnLeaving (c : Context) : Nat :=
  match c.posting with
  | .ordinary code _ d | .reported code d => debtAfter c.skipDebt code d
  | .skipped => c.skipDebt - 1
  | .none | .mismatch | .discard _ => c.skipDebt

/-- The part-half write that carries a retired count. -/
abbrev CarriesRetired (retired : Half) (bytes : List Byte) : Prop := (bytes.drop 4).take 2 = leBytes 2 retired.toNat

theorem queuePartHalf_carries {n : StationId} {u : State} {retired : Half} (h : (u.ctx n).retired = retired) :
    PartHalfReports n (CarriesRetired retired) (queuePartHalf n u) := by
  intro ht
  refine PartHalfQueued.imp (fun bytes hb => ?_) rfl (queuePartHalf_reports n u ht)
  rw [hb, ← h]
  exact partHalfBytes_retired ..

theorem takesWrites_congr {s t : State} (h : t.ctl = s.ctl) : TakesWrites t ↔ TakesWrites s := by
  unfold TakesWrites
  rw [h]

theorem reports_noticeKick {n : StationId} {P : List Byte → Prop} {s : State} (h : PartHalfReports n P s) :
    PartHalfReports n P (noticeKick s) := fun ht =>
  partHalfQueued_noticeKick (h ((takesWrites_congr (noticeKick_ctl s)).mp ht))

/-- A station that goes on keeps the part-half write it has queued. -/
theorem reports_takeNext {n : StationId} {P : List Byte → Prop} {u : State} (h : PartHalfReports n P u)
    (hmay : u.ctl.state = .active ∨ (u.ctx n).lastRead = (u.ctx n).taken ∨ (u.ctx n).skipDebt ≠ 0) :
    PartHalfReports n P (takeNext n u) := by
  intro ht
  have hq := h ((takesWrites_congr (ctl_of_fixed (takeNext_fixed n u))).mp ht)
  by_cases hr : (u.ctx n).lastRead = (u.ctx n).taken
  · rw [takeNext_ready hr]
    exact hq
  · by_cases hd : (u.ctx n).skipDebt = 0
    · rw [takeNext_fetch hr hd]
      unfold startFetch
      have hact : u.ctl.state = .active := hmay.resolve_right fun k => k.elim hr fun k => k hd
      rw [offerFetch_active (by exact hact)]
      exact partHalfQueued_stationOffer (s := u.setCtx n _) hq _
    · rw [takeNext_skip hr hd]
      exact partHalfQueued_stationOffer (s := u.setCtx n _) hq _

/-- A record that is retired, with the part-half write of its station. -/
def retiredWith (n : StationId) (x : Context) (flag : Bool) (s : State) : State :=
  let t := queuePartHalf n (s.setCtx n x)
  if flag then setAttention n.1 t else t

theorem retiredWith_engine (n : StationId) (x : Context) (flag : Bool) (s : State) :
    (retiredWith n x flag s).engine = (queuePartHalf n (s.setCtx n x)).engine := by
  unfold retiredWith
  dsimp only
  split
  · simp
  · rfl

theorem retiredWith_done {n : StationId} {retired : Half} {debt : Nat} (flag : Bool) (s : State) :
    PostingDone n retired debt s (retiredWith n { s.ctx n with retired := retired, skipDebt := debt } flag s) := by
  have hq : PostingDone n retired debt s (queuePartHalf n (s.setCtx n { s.ctx n with retired := retired, skipDebt := debt })) :=
    ⟨by rw [queuePartHalf_ctx, setCtx_ctx_self], (OthersKept.setCtx _ n _).trans (.queuePartHalf _ n n),
      Or.inl ((noticeSame_kept s).partHalf ((noticeSame_kept s).setCtx (.refl s)) n trivial)⟩
  unfold retiredWith
  dsimp only
  split
  · exact ⟨by rw [setAttention_ctx, hq.ctx], hq.others.trans (.setAttention _ n _), hq.notice.setAttention⟩
  · exact hq

theorem retiredWith_reports {n : StationId} (x : Context) (flag : Bool) (s : State) :
    PartHalfReports n (CarriesRetired x.retired) (retiredWith n x flag s) := by
  have h : PartHalfReports n (CarriesRetired x.retired) (queuePartHalf n (s.setCtx n x)) :=
    queuePartHalf_carries (by rw [setCtx_ctx_self])
  intro ht
  have hctl : (retiredWith n x flag s).ctl = (queuePartHalf n (s.setCtx n x)).ctl := by
    unfold retiredWith
    dsimp only
    split <;> simp
  have hq := h ((takesWrites_congr hctl).mp ht)
  unfold PartHalfQueued at hq ⊢
  rw [retiredWith_engine]
  exact hq

/-- Whether the report of a retirement waits for room. -/
theorem retiredWith_waits (n : StationId) (x : Context) (flag : Bool) (s : State) :
    (retiredWith n x flag s).engine.inRoom (.partHalf n) = true ↔ ReportWaits s n := by
  rw [retiredWith_engine, reportWaits_iff]
  exact Iff.rfl

theorem PostingDone.movesOn_reports {n : StationId} {retired : Half} {debt : Nat} {s u : State} {P : List Byte → Prop}
    (h : PostingDone n retired debt s u) (hd : (s.ctx n).disabling = false)
    (hr : (s.ctx n).pendingHalt.or (s.ctx n).posting.halts = none) (hb : (s.ctx n).badMark = false)
    (hmay : s.ctl.state = .active ∨ (s.ctx n).lastRead = (s.ctx n).taken ∨ debt ≠ 0) (hp : PartHalfReports n P u) :
    PartHalfReports n P (noticeKick (leavePosting n u)) := by
  rw [h.leaves hd hr, if_neg (by rw [hb]; exact Bool.false_ne_true)]
  exact reports_noticeKick (reports_takeNext hp (by rw [h.others.ctl, h.ctx]; exact hmay))

/-- The outcome write of a posting that retires its record has entered the queue (R28). -/
def PostingRecorded (s : State) (n : StationId) : Prop :=
  ((s.ctx n).backlog = none ∧ s.engine.inRoom (.outcome n) = false) ∧
  ((s.ctx n).posting = .skipped ∨ ∃ code flag disp, (s.ctx n).posting = .ordinary code flag disp)

/-- The last write for which a posting waits has entered the queue (R28, R22). -/
def PostingLeaves (s : State) (n : StationId) : Prop :=
  (PostingRecorded s n ∧ ¬ReportWaits s n) ∨
  (s.engine.inRoom (.partHalf n) = false ∧ ∃ code disp, (s.ctx n).posting = .reported code disp) ∨
  (((s.ctx n).backlog = none ∧ s.engine.inRoom (.outcome n) = false) ∧ (s.ctx n).posting = .mismatch)

theorem exec_retirement {s : State} {n : StationId} (h : retirementDue s n = true) :
    exec (.retirement n) s = .next (noticeKick (retire n s)) := congrArg Host.Outcome.next (if_pos h)

theorem retirementDue_recorded {s : State} {n : StationId} (hs : (s.ctx n).state = .posting) (h : PostingRecorded s n) :
    retirementDue s n = true := by
  obtain ⟨htaken, hp⟩ := h
  unfold retirementDue
  rcases hp with hp | ⟨code, flag, disp, hp⟩ <;> rw [hs, hp] <;> exact postingTaken_of htaken.1 htaken.2

theorem retire_ordinary {s : State} {n : StationId} {code : Code} {flag : Bool} {d : Disposition}
    (h : (s.ctx n).posting = .ordinary code flag d) :
    retire n s = reportPosting n code d (retiredWith n { s.ctx n with retired := (s.ctx n).retired + 1 } flag s) := by
  unfold retire
  rw [h]
  rfl

theorem retire_skipped {s : State} {n : StationId} (h : (s.ctx n).posting = .skipped) :
    retire n s = reportPosting n .skipped .continue
      (retiredWith n { s.ctx n with retired := (s.ctx n).retired + 1, skipDebt := (s.ctx n).skipDebt - 1 } false s) := by
  unfold retire
  rw [h]
  rfl

/-- A posting whose last write has entered the queue leaves POSTING, its record retired and its class applied. -/
theorem retirement_leaves {s : State} {n : StationId} (hs : (s.ctx n).state = .posting) (h : PostingLeaves s n) :
    ∃ u, exec (.retirement n) s = .next (noticeKick (leavePosting n u)) ∧
      PostingDone n (retiredAfter (s.ctx n)) (debtOnLeaving (s.ctx n)) s u ∧
      (PostingRecorded s n → PartHalfReports n (CarriesRetired (retiredAfter (s.ctx n))) u) := by
  rcases h with ⟨hrec, hroom⟩ | ⟨hroom, code, d, hp⟩ | ⟨htaken, hp⟩
  · have applied : ∀ {retired debt} (flag : Bool) (code : Code) (d : Disposition),
        retire n s = reportPosting n code d (retiredWith n { s.ctx n with retired := retired, skipDebt := debt } flag s) →
        retired = retiredAfter (s.ctx n) → debtAfter debt code d = debtOnLeaving (s.ctx n) →
        ∃ u, exec (.retirement n) s = .next (noticeKick (leavePosting n u)) ∧
          PostingDone n (retiredAfter (s.ctx n)) (debtOnLeaving (s.ctx n)) s u ∧
          (PostingRecorded s n → PartHalfReports n (CarriesRetired (retiredAfter (s.ctx n))) u) := by
      rintro retired debt flag code d heq rfl hdebt
      have hdone := retiredWith_done (n := n) (retired := retiredAfter (s.ctx n)) (debt := debt) flag s
      have hrep := retiredWith_reports (n := n) { s.ctx n with retired := retiredAfter (s.ctx n), skipDebt := debt } flag s
      have hin : (retiredWith n { s.ctx n with retired := retiredAfter (s.ctx n), skipDebt := debt } flag s).engine.inRoom
          (.partHalf n) = false := Bool.eq_false_iff.mpr fun k => hroom ((retiredWith_waits ..).mp k)
      have hskip : debtAfter ((retiredWith n { s.ctx n with retired := retiredAfter (s.ctx n), skipDebt := debt } flag s).ctx
          n).skipDebt code d = debtOnLeaving (s.ctx n) := by rw [hdone.ctx]; exact hdebt
      rw [exec_retirement (retirementDue_recorded hs hrec), heq, (reportPosting_cases ..).2 hin]
      refine ⟨_, rfl, ?_, fun _ => hrep⟩
      rw [hskip]
      exact hdone.setDebt _
    obtain ⟨_, hp | ⟨code, flag, d, hp⟩⟩ := hrec
    · exact applied false .skipped .continue (retire_skipped hp) (by unfold retiredAfter; rw [hp])
        (by unfold debtOnLeaving; rw [hp]; rfl)
    · exact applied flag code d (debt := (s.ctx n).skipDebt) (retire_ordinary hp) (by unfold retiredAfter; rw [hp])
        (by unfold debtOnLeaving; rw [hp])
  · have hdue : retirementDue s n = true := by
      unfold retirementDue
      rw [hs, hp, hroom]
      rfl
    have hnone : ¬PostingRecorded s n := fun ⟨_, hk⟩ => by
      rcases hk with hk | ⟨_, _, _, hk⟩ <;> rw [hp] at hk <;> cases hk
    have hretire : retire n s = leavePosting n (s.setCtx n { s.ctx n with skipDebt := debtOnLeaving (s.ctx n) }) := by
      unfold retire debtOnLeaving
      rw [hp]
      rfl
    rw [exec_retirement hdue, hretire]
    refine ⟨_, rfl, ⟨?_, .setCtx _ n _, (show NoticeAt n s s from Or.inl (.refl s)).setCtx _⟩, fun k => absurd k hnone⟩
    rw [setCtx_ctx_self]
    unfold retiredAfter
    rw [hp]
  · have hdue : retirementDue s n = true := by
      unfold retirementDue
      rw [hs, hp]
      exact postingTaken_of htaken.1 htaken.2
    have hnone : ¬PostingRecorded s n := fun ⟨_, hk⟩ => by
      rcases hk with hk | ⟨_, _, _, hk⟩ <;> rw [hp] at hk <;> cases hk
    have hretire : retire n s = leavePosting n s := by
      unfold retire
      rw [hp]
    rw [exec_retirement hdue, hretire]
    refine ⟨s, rfl, ⟨?_, .refl s, Or.inl (.refl s)⟩, fun k => absurd k hnone⟩
    unfold retiredAfter debtOnLeaving
    rw [hp]

/-- A posting whose record is retired but whose report waits for room stays in POSTING. -/
theorem retirement_waits {s : State} {n : StationId} {x : Context} {flag : Bool} {code : Code} {d : Disposition}
    (hs : (s.ctx n).state = .posting) (hrec : PostingRecorded s n) (hw : ReportWaits s n)
    (heq : retire n s = reportPosting n code d (retiredWith n x flag s))
    (hx : (retiredWith n x flag s).ctx n = x) :
    Completes (exec (.retirement n) s) fun t =>
      t.ctx n = { x with posting := .reported code d } ∧ RetiredReported n x.retired t := by
  refine ⟨_, exec_retirement (retirementDue_recorded hs hrec), ?_⟩
  rw [heq, (reportPosting_cases ..).1 ((retiredWith_waits ..).mpr hw), hx]
  refine ⟨by rw [noticeKick_ctx, setCtx_ctx_self], reports_noticeKick ?_⟩
  exact retiredWith_reports x flag s

/-- A posted outcome of a class other than FAULT halts its station by its disposition alone. -/
theorem classHalt_of_class {code : Code} (h : code.class ≠ .fault) (d : Disposition) :
    classHalt code d = if code.class = .fail ∧ d = .halt then some .stepFailed else none := by
  revert h
  cases d <;> cases code <;> simp [classHalt, Code.class]

theorem classHalt_supplyTrip (d : Disposition) : classHalt .supplyTrip d = some .supplyTrip := by cases d <;> rfl

theorem classHalt_unseated (d : Disposition) : classHalt .unseated d = some .unseated := by cases d <;> rfl

/-- Settles O36: the retired count, the notice and the part half, the class with its disposition, and the way out of
POSTING. -/
theorem retirementAppliesClassAndMovesOn : Obligations.RetirementAppliesClassAndMovesOn := by
  intro s n hs c taken recorded reported leaves ends retired next undisturbed halts moves
  have hout : leaves → ∃ u, exec (.retirement n) s = .next (noticeKick (leavePosting n u)) ∧
      PostingDone n retired (debtOnLeaving c) s u ∧ (recorded → PartHalfReports n (CarriesRetired retired) u) :=
    fun h => retirement_leaves hs h
  have hhalts : ∀ r, leaves → c.disabling = false → c.pendingHalt.or c.posting.halts = some r → halts r := by
    intro r hl hd hr
    obtain ⟨u, hexec, hdone, _⟩ := hout hl
    obtain ⟨h1, h2, h3, _⟩ := hdone.halts hd hr
    exact ⟨_, hexec, h1, h2, h3⟩
  have hown : ∀ r, undisturbed → c.posting.halts = some r → halts r := fun r ⟨hl, hd, hp⟩ hr =>
    hhalts r hl hd (by rw [hp]; exact hr)
  have hmoves : ∀ debt, undisturbed → c.posting.halts = none → debtOnLeaving c = debt → moves debt := by
    rintro debt ⟨hl, hd, hp⟩ hr rfl
    obtain ⟨u, hexec, hdone, hrep⟩ := hout hl
    have hor : c.pendingHalt.or c.posting.halts = none := by rw [hp]; exact hr
    refine ⟨fun hb => ?_, fun hb hmay => ?_⟩
    · obtain ⟨h1, h2, h3, _⟩ := hdone.haltsBad hd hor hb
      exact ⟨_, hexec, h1, h2, h3⟩
    · obtain ⟨h1, h2, h3, h4, h5, hready, hfetch, hskip⟩ := hdone.movesOn hd hor hb hmay
      exact ⟨_, hexec, h1, fun hrec => hdone.movesOn_reports hd hor hb hmay (hrep hrec), h2, h3, h4, h5, hready, hfetch, hskip⟩
  refine ⟨fun code flag disp htaken hp => ⟨fun hf => ?_, fun hw => ?_⟩, fun htaken hp hw => ?_, fun hl => ⟨fun hd => ?_,
    fun r hd hr => hhalts r hl hd (by rw [hr]; rfl)⟩, fun code disp hu hp => ?_, fun hu hp => ?_, fun hu hp => ?_⟩
  · refine ⟨_, exec_retirement (retirementDue_recorded hs ⟨htaken, Or.inr ⟨_, _, _, hp⟩⟩), ?_⟩
    have hdone := retiredWith_done (n := n) (retired := c.retired + 1) (debt := c.skipDebt) false s
    have hat : NoticeAt n (setAttention n.1 s) (retire n s) := by
      rw [retire_ordinary hp, hf]
      exact (noticeAt_kept n _).reportPosting (Or.inl (noticeAt_setAttention hdone.notice)) rfl
    refine ⟨?_, noticeFollows_noticeKick hat.same⟩
    rw [noticeKick_attention]
    exact attention_of_noticeSame hat.same
  · have hret : retired = c.retired + 1 := by
      show retiredAfter c = _
      unfold retiredAfter
      rw [hp]
    rw [hret]
    exact retirement_waits hs ⟨htaken, Or.inr ⟨_, _, _, hp⟩⟩ hw (retire_ordinary hp)
      (retiredWith_done (debt := c.skipDebt) flag s).ctx
  · have hret : retired = c.retired + 1 := by
      show retiredAfter c = _
      unfold retiredAfter
      rw [hp]
    rw [hret]
    exact retirement_waits hs ⟨htaken, Or.inl hp⟩ hw (retire_skipped hp) (retiredWith_done false s).ctx
  · obtain ⟨u, hexec, hdone, _⟩ := hout hl
    obtain ⟨h1, h2, h3, _⟩ := hdone.arrives hs hd
    exact ⟨_, hexec, h1, h2, h3⟩
  · have hclass : c.posting.halts = classHalt code disp := by
      rcases hp with hp | ⟨flag, hp⟩ <;> rw [hp] <;> rfl
    have hdebt : debtOnLeaving c = debtAfter c.skipDebt code disp := by
      unfold debtOnLeaving
      rcases hp with hp | ⟨flag, hp⟩ <;> rw [hp]
    have hgo : code.class ≠ .fault → (code.class = .fail → disp ≠ .halt) → moves (debtAfter c.skipDebt code disp) :=
      fun hk hn => hmoves _ hu (by rw [hclass, classHalt_of_class hk, if_neg fun h => hn h.1 h.2]) hdebt
    refine ⟨fun hk => hown _ hu ?_, fun hk => hown _ hu ?_, fun hk hd => hown _ hu ?_, fun hk hd => ?_, fun k hk hd => ?_,
      fun hk => ?_⟩
    · rw [hclass, hk, classHalt_supplyTrip]
    · rw [hclass, hk, classHalt_unseated]
    · rw [hclass, classHalt_of_class (by rw [hk]; nofun), if_pos ⟨hk, hd⟩]
    · have h := hgo (by rw [hk]; nofun) (fun _ => by rw [hd]; nofun)
      rwa [hd] at h
    · have h := hgo (by rw [hk]; nofun) (fun _ => by rw [hd]; nofun)
      rw [hd] at h
      have hd : debtAfter c.skipDebt code (.skip k) = min (c.skipDebt + k) 15 := if_pos hk
      rwa [hd] at h
    · have hne : code.class ≠ .fail := by rcases hk with hk | hk <;> rw [hk] <;> nofun
      have hd : debtAfter c.skipDebt code disp = c.skipDebt :=
        match disp with
        | .halt => rfl
        | .continue => rfl
        | .skip _ => if_neg hne
      have h := hgo (by rcases hk with hk | hk <;> rw [hk] <;> nofun) (fun k => absurd k hne)
      rwa [hd] at h
  · exact hmoves _ hu (by rw [hp]; rfl) (by unfold debtOnLeaving; rw [hp])
  · exact hown _ hu (by rw [hp]; rfl)

/-! ### The discard range (R35) -/

/-- The part-half writes stand as they are: queued, waiting and held. -/
structure PartHalvesStand (n : StationId) (s t : State) : Prop where
  held : t.engine.held = s.engine.held
  queue : ∀ x, x.req.kind = .partHalf n → (x ∈ t.engine.queue ↔ x ∈ s.engine.queue)
  room : ∀ r, r.kind = .partHalf n → (r ∈ t.engine.room ↔ r ∈ s.engine.room)

theorem PartHalvesStand.trans {n : StationId} {s t u : State} (h : PartHalvesStand n s t) (k : PartHalvesStand n t u) :
    PartHalvesStand n s u :=
  ⟨k.held.trans h.held, fun x hx => (k.queue x hx).trans (h.queue x hx), fun r hr => (k.room r hr).trans (h.room r hr)⟩

theorem partHalvesStand_of_engine {n : StationId} {s t : State} (h : t.engine = s.engine) : PartHalvesStand n s t :=
  ⟨by rw [h], fun _ _ => by rw [h], fun _ _ => by rw [h]⟩

/-- An offer of another kind of request. -/
theorem partHalvesStand_offer {n : StationId} {r : Request} (h : r.kind ≠ .partHalf n) (s : State) :
    PartHalvesStand n s (offer r s) := by
  have hx : ∀ x : Entry, x.req.kind = .partHalf n → x ≠ { req := r, sent := none } := fun x hx he => h (by rw [← hx, he])
  have hr : ∀ q : Request, q.kind = .partHalf n → q ≠ r := fun q hq he => h (by rw [← hq, he])
  have heng := offer_engine r s
  unfold engineOffered at heng
  split at heng
  · split at heng <;> constructor <;> rw [heng]
    · exact fun x hk => by simp [hx x hk]
    · exact fun _ _ => Iff.rfl
    · exact fun _ _ => Iff.rfl
    · exact fun q hk => by simp [hr q hk]
  · exact partHalvesStand_of_engine heng

theorem partHalvesStand_noticeKick (n : StationId) (s : State) : PartHalvesStand n s (noticeKick s) := by
  by_cases h : SendDue s
  · have heng : (noticeKick s).engine = (offer (noticeWrite s (s.notice.count + 1)) s).engine := by
      rw [(noticeKick_of_due h).2.1, offer_engine]
    have k := partHalvesStand_offer (n := n) (r := noticeWrite s (s.notice.count + 1)) nofun s
    constructor <;> rw [heng]
    exacts [k.held, k.queue, k.room]
  · rw [noticeKick_of_not h]
    exact partHalvesStand_of_engine rfl

theorem partHalvesStand_stationOffer (n m : StationId) (b : Backlog) (s : State) : PartHalvesStand n s (stationOffer m b s) := by
  unfold stationOffer
  split
  · exact partHalvesStand_of_engine rfl
  · have hk : (stationRequest s m b).kind ≠ .partHalf n := by cases b <;> exact nofun
    exact (partHalvesStand_of_engine (s := s) (t := s.setCtx m { s.ctx m with backlog := none }) rfl).trans (partHalvesStand_offer hk _)

theorem stationOffer_st_ne {n m : StationId} (h : m ≠ n) (b : Backlog) (s : State) : (stationOffer n b s).st m = s.st m := by
  unfold stationOffer
  split
  · exact (OthersKept.setCtx s n _).st m h
  · rw [offer_st]
    exact (OthersKept.setCtx s n _).st m h

theorem setCtx_setCtx (s : State) (n : StationId) (x y : Context) : (s.setCtx n x).setCtx n y = s.setCtx n y := by
  unfold State.setCtx
  rw [setSt_st_self]
  unfold State.setSt
  dsimp only
  rw [Vector.set_set]

/-- The DISCARDED outcome write that a free station offers. -/
theorem stationOffer_discarded {n : StationId} {u : State} (hb : u.engine.ownBusy n = false) (ht : TakesWrites u) :
    RequestWaits (outcomeWrite (stationOffer n .discarded u) n (outcomeBytes .discarded (u.ctx n).retired u.now u.now []))
      (stationOffer n .discarded u) := by
  unfold stationOffer
  rw [if_neg (by rw [hb]; exact Bool.false_ne_true)]
  have key : outcomeWrite (offer (stationRequest u n .discarded) (u.setCtx n { u.ctx n with backlog := none })) n
      (outcomeBytes .discarded (u.ctx n).retired u.now u.now []) = stationRequest u n .discarded := by
    simp [outcomeWrite, stationRequest, Context.recordAddr]
  rw [key]
  exact offer_waits (admits_write (by simpa [TakesWrites] using ht) rfl)

/-- However a station goes on, its retired count stands, and a posting that goes on passes a record over. -/
theorem takeNext_posting (n : StationId) (u : State) :
    ((takeNext n u).ctx n).retired = (u.ctx n).retired ∧
    ((takeNext n u).ctx n).posting = if ((takeNext n u).ctx n).state = .posting then .skipped else .none := by
  unfold takeNext
  split
  · rw [setCtx_ctx_self]
    exact ⟨rfl, rfl⟩
  · split
    · unfold startFetch offerFetch
      generalize hx : ({ u.ctx n with state := .fetching, posting := .none, taken := (u.ctx n).taken + 1 } : Context) = x
      have hctx : ((u.setCtx n x).ctx n) = x := setCtx_ctx_self ..
      split
      · rw [stationOffer_ctx, if_pos rfl, hctx]
        subst hx
        exact ⟨rfl, rfl⟩
      · unfold fetchEnded
        rw [setCtx_ctx_self, hctx, if_pos (by subst hx; rfl)]
        unfold fetchFailed
        dsimp only
        rw [setCtx_ctx_self]
        split
        · rw [arriveIdle_ctx, setCtx_ctx_self]
          subst hx
          exact ⟨rfl, rfl⟩
        · rw [enterHalted_ctx, setCtx_ctx_self]
          subst hx
          exact ⟨rfl, rfl⟩
    · unfold startSkip
      rw [stationOffer_ctx, if_pos rfl, setCtx_ctx_self]
      exact ⟨rfl, rfl⟩

theorem exec_discarded {s : State} {n : StationId} {last : Half} (hs : (s.ctx n).state = .posting)
    (hp : (s.ctx n).posting = .discard last) (htaken : s.postingTaken n = true) (hne : (s.ctx n).taken ≠ (s.ctx n).retired) :
    exec (.discarded n) s =
      .next (noticeKick (discardNext n last (s.setCtx n { s.ctx n with retired := (s.ctx n).retired + 1 }))) := by
  have hdue : discardedDue s n = true := by
    unfold discardedDue
    rw [hs, hp, htaken]
    simpa using hne
  refine congrArg Host.Outcome.next ((if_pos hdue).trans ?_)
  unfold retireDiscarded
  rw [hp]

/-- Settles O37: the range is retired in order, one DISCARDED outcome write after the other, and leaves POSTING at its end. -/
theorem discardRetiresItsRangeInOrder : Obligations.DiscardRetiresItsRangeInOrder := by
  intro s n last hs hp hb hroom htaken
  have hne : (s.ctx n).taken ≠ (s.ctx n).retired := by
    rw [htaken]
    bv_omega
  have hexec := exec_discarded hs hp (postingTaken_of hb hroom) hne
  refine ⟨fun hlast => ⟨_, hexec, ?_⟩, fun hlast hw => ?_, fun hlast hw => ?_⟩
  · generalize hu : s.setCtx n { s.ctx n with retired := (s.ctx n).retired + 1, taken := (s.ctx n).taken + 1 } = u
    have hstep : discardNext n last (s.setCtx n { s.ctx n with retired := (s.ctx n).retired + 1 }) = stationOffer n .discarded u := by
      unfold discardNext
      rw [setCtx_ctx_self, if_neg (by exact hlast), ← hu]
      rw [setCtx_setCtx]
    have huctx : u.ctx n = { s.ctx n with retired := (s.ctx n).retired + 1, taken := (s.ctx n).taken + 1 } := by
      rw [← hu, setCtx_ctx_self]
    have hkept : OthersKept n s u := hu ▸ .setCtx s n _
    have heng : u.engine = s.engine := by rw [← hu]; rfl
    rw [hstep]
    have hstand : PartHalvesStand n s (noticeKick (stationOffer n .discarded u)) :=
      ((partHalvesStand_of_engine heng).trans (partHalvesStand_stationOffer n n _ u)).trans (partHalvesStand_noticeKick n _)
    refine ⟨?_, fun hfree ht => ?_, hstand.held, hstand.queue, hstand.room, fun m hm => ?_⟩
    · rw [noticeKick_ctx, stationOffer_ctx, if_pos rfl, huctx, heng]
    · have h := stationOffer_discarded (n := n) (u := u) (by rw [heng]; exact hfree) (by rw [← hu]; exact ht)
      rw [huctx, hkept.now] at h
      have hw : ∀ bytes, outcomeWrite (noticeKick (stationOffer n .discarded u)) n bytes =
          outcomeWrite (stationOffer n .discarded u) n bytes := fun bytes => by
        unfold outcomeWrite
        rw [noticeKick_ctx]
      rw [hw]
      exact requestWaits_noticeKick h
    · rw [noticeKick_st, stationOffer_st_ne hm, hkept.st m hm]
  all_goals
    have hret : last = (s.ctx n).retired + 1 := by rw [← hlast, htaken]
    have hstep : discardNext n last (s.setCtx n { s.ctx n with retired := (s.ctx n).retired + 1 }) =
        reportPosting n .discarded .continue (retiredWith n { s.ctx n with retired := last } false s) := by
      unfold discardNext
      rw [setCtx_ctx_self, if_pos (by exact hlast), hret]
      rfl
    rw [hstep] at hexec
    have hdone := retiredWith_done (n := n) (retired := last) (debt := (s.ctx n).skipDebt) false s
    have hrep := retiredWith_reports (n := n) { s.ctx n with retired := last } false s
  · refine ⟨_, hexec, ?_⟩
    rw [(reportPosting_cases ..).1 ((retiredWith_waits ..).mpr hw)]
    refine ⟨?_, reports_noticeKick hrep⟩
    rw [noticeKick_ctx, setCtx_ctx_self]
    exact congrArg (fun c : Context => { c with posting := .reported .discarded .continue }) hdone.ctx
  · rw [(reportPosting_cases ..).2 (Bool.eq_false_iff.mpr fun k => hw ((retiredWith_waits ..).mp k))] at hexec
    have hout : PostingDone n last (s.ctx n).skipDebt s ((retiredWith n { s.ctx n with retired := last } false s).setCtx n
        { (retiredWith n { s.ctx n with retired := last } false s).ctx n with skipDebt := (s.ctx n).skipDebt }) :=
      hdone.setDebt _
    have hrep' : PartHalfReports n (CarriesRetired last) ((retiredWith n { s.ctx n with retired := last } false s).setCtx n
        { (retiredWith n { s.ctx n with retired := last } false s).ctx n with skipDebt := (s.ctx n).skipDebt }) := hrep
    have hclass : applyClass n .discarded .continue (retiredWith n { s.ctx n with retired := last } false s) =
        leavePosting n ((retiredWith n { s.ctx n with retired := last } false s).setCtx n
          { (retiredWith n { s.ctx n with retired := last } false s).ctx n with skipDebt := (s.ctx n).skipDebt }) := by
      unfold applyClass
      rw [hdone.ctx]
      rfl
    rw [hclass] at hexec
    generalize (retiredWith n { s.ctx n with retired := last } false s).setCtx n
        { (retiredWith n { s.ctx n with retired := last } false s).ctx n with skipDebt := (s.ctx n).skipDebt } = u at hexec hout hrep'
    subst hlast
    have hnohalt : (s.ctx n).posting.halts = none := by rw [hp]; rfl
    refine ⟨_, hexec, ?_⟩
    dsimp only
    cases hd : (s.ctx n).disabling with
    | true =>
      obtain ⟨harr, hhalt, hr, hpost⟩ := hout.arrives hs hd
      refine ⟨hr, ?_, fun _ => ⟨harr, hhalt⟩, nofun⟩
      rw [hpost, if_neg (by rw [harr.1]; nofun)]
    | false =>
      cases hpend : (s.ctx n).pendingHalt with
      | some r =>
        obtain ⟨hhalt, hdep, hr, hpost⟩ := hout.halts hd (r := r) (by rw [hpend]; rfl)
        refine ⟨hr, ?_, nofun, fun _ => ⟨fun r' hr' => ?_, nofun, nofun⟩⟩
        · rw [hpost, if_neg (by rw [hhalt.1]; nofun)]
        · cases hr'
          exact ⟨hhalt, hdep⟩
      | none =>
        have hor : (s.ctx n).pendingHalt.or (s.ctx n).posting.halts = none := by rw [hpend, hnohalt]; rfl
        cases hbad : (s.ctx n).badMark with
        | true =>
          obtain ⟨hhalt, hdep, hr, hpost⟩ := hout.haltsBad hd hor hbad
          refine ⟨hr, ?_, nofun, fun _ => ⟨nofun, fun _ _ => ⟨hhalt, hdep⟩, nofun⟩⟩
          rw [hpost, if_neg (by rw [hhalt.1]; nofun)]
        | false =>
          have hnext := takeNext_posting n u
          have heq : leavePosting n u = takeNext n u := by
            rw [hout.leaves hd hor, hbad]
            exact if_neg Bool.false_ne_true
          have hmoved := fun hmay => hout.movesOn hd hor hbad hmay
          rw [← heq, ← noticeKick_ctx n (leavePosting n u)] at hnext
          refine ⟨hnext.1.trans (by rw [hout.ctx]), hnext.2, nofun, fun _ => ⟨nofun, nofun, fun _ _ =>
            ⟨fun hmay => ⟨(hmoved hmay).1, ?_⟩, fun hr => ?_, fun hr hz hact => ?_, fun hr hz => ?_⟩⟩⟩
          · exact hout.movesOn_reports hd hor hbad hmay hrep'
          · obtain ⟨_, _, _, _, _, hready, _⟩ := hmoved (Or.inr (Or.inl hr))
            exact hready hr
          · obtain ⟨_, _, _, _, _, _, hfetch, _⟩ := hmoved (Or.inl hact)
            exact hfetch hr hz
          · obtain ⟨_, _, _, _, _, _, _, hskip⟩ := hmoved (Or.inr (Or.inr hz))
            obtain ⟨h1, _, h3⟩ := hskip hr hz
            exact ⟨h1, h3⟩

end Sys2Proof.Proofs
end

section
/-! PROOFS. A step ended from outside by a trip or an unseat: its block's part, its outcome write, and the way to HALTED
(R33, R40, R76, R92, R136, R140, R154). -/

namespace Sys2Proof.Proofs

open Sys2Proof.Machine Sys2Proof.Laws

/-! ### The block's part (R40) -/

/-- A station that leaves the arrived set is itself left alone. -/
theorem leaveArrived_untouched (n : StationId) (s : State) :
    (leaveArrived n s).st n = s.st n ∧ (∀ u, ((leaveArrived n s).unit u).binding = (s.unit u).binding) ∧
    (leaveArrived n s).waitList = s.waitList := by
  unfold leaveArrived
  split
  · exact ⟨rfl, fun _ => rfl, rfl⟩
  · next k _ =>
    split
    · obtain ⟨h1, h2, h3⟩ := settleCohort_untouched k (s.setCohort k ((s.cohort k).dropArrived n))
      refine ⟨h1 n fun a ha => ?_, h2, h3⟩
      rw [cohort_setCohort, if_pos rfl] at ha
      simpa using (List.mem_filter.mp ha).2
    · exact ⟨rfl, fun _ => rfl, rfl⟩

/-- It stands in the arrived set of its cohort no more. -/
theorem leaveArrived_gone {n : StationId} {s : State} {k : CohortId} (hk : (s.ctx n).cohort = some k) :
    ∀ a ∈ ((leaveArrived n s).cohort k).arrived, a.station ≠ n := by
  by_cases h : ∃ a ∈ (s.cohort k).arrived, a.station = n
  · have heq : leaveArrived n s = settleCohort k (s.setCohort k ((s.cohort k).dropArrived n)) := by
      unfold leaveArrived
      rw [hk]
      exact if_pos ((arrived_any_iff _ _).mpr h)
    rw [heq]
    intro a ha
    have hmem := (settleCohort_sets k _).2 a ha
    rw [cohort_setCohort, if_pos rfl] at hmem
    simpa using (List.mem_filter.mp hmem).2
  · have habs : ∀ a ∈ (s.cohort k).arrived, a.station ≠ n := fun a ha hn => h ⟨a, ha, hn⟩
    rw [leaveArrived_absent hk habs]
    exact habs

theorem abandonCollect_st (n m : StationId) (slot : SlotId) (s : State) : (abandonCollect n slot s).st m = s.st m :=
  st_congr (abandonCollect_stations n slot s) m

/-- What the owning block does, where no supply ramps: a QUERY cuts the link, an attached PRESS lifts its channel, and every
other kind leaves the station as it is. -/
theorem cutBlock_cases (n : StationId) (st : InFlight) {s : State} (hr : (s.st n).power.supply ≠ .ramping) :
    (∃ q, st.op = .query q ∧ st.handed = false ∧ cutBlock n st s = cutLink n s) ∨
    (∃ c delay width, st.op = .press c delay width ∧ st.handed = false ∧ st.attached = true ∧
      cutBlock n st s = liftChan n c s) ∨
    (((∀ q, st.op ≠ .query q) ∨ st.handed = true) ∧
      ((∀ c delay width, st.op ≠ .press c delay width) ∨ st.handed = true ∨ st.attached = false) ∧
      (cutBlock n st s = s ∨ (∃ l, cutBlock n st s = { s with waitList := l }) ∨
        (∃ slot, cutBlock n st s = abandonCollect n slot s) ∨ cutBlock n st s = leaveArrived n s)) := by
  unfold cutBlock
  cases hh : st.handed with
  | true =>
    refine Or.inr (Or.inr ⟨Or.inr rfl, Or.inr (Or.inl rfl), ?_⟩)
    rw [if_pos rfl]
    unfold cutHanded
    split
    · exact Or.inr (Or.inr (Or.inl ⟨_, rfl⟩))
    · exact Or.inl rfl
  | false =>
    rw [if_neg Bool.false_ne_true]
    unfold cutTaken
    split
    case h_1 q hop => exact Or.inl ⟨q, hop, rfl, rfl⟩
    case h_2 c delay width hop =>
      cases ha : st.attached with
      | true => exact Or.inr (Or.inl ⟨c, delay, width, hop, rfl, rfl, rfl⟩)
      | false => exact Or.inr (Or.inr ⟨Or.inl (by rw [hop]; exact nofun), Or.inr (Or.inr rfl), Or.inl rfl⟩)
    case h_3 on hop =>
      exact Or.inr (Or.inr ⟨Or.inl (by rw [hop]; exact nofun),
        Or.inl (by rw [hop]; exact nofun), Or.inl (if_neg hr)⟩)
    case h_4 slot arm hop =>
      exact Or.inr (Or.inr ⟨Or.inl (by rw [hop]; exact nofun),
        Or.inl (by rw [hop]; exact nofun), Or.inr (Or.inl ⟨_, rfl⟩)⟩)
    case h_5 slot hop =>
      exact Or.inr (Or.inr ⟨Or.inl (by rw [hop]; exact nofun),
        Or.inl (by rw [hop]; exact nofun), Or.inr (Or.inr (Or.inl ⟨_, rfl⟩))⟩)
    case h_6 line channel delay width hop =>
      exact Or.inr (Or.inr ⟨Or.inl (by rw [hop]; exact nofun),
        Or.inl (by rw [hop]; exact nofun), Or.inr (Or.inr (Or.inr rfl))⟩)
    case h_7 hq hp hs ha hc hb =>
      exact Or.inr (Or.inr ⟨Or.inl fun q => hq q, Or.inl fun c d w => hp c d w, Or.inl rfl⟩)

/-- The link's part of ending a QUERY (R76). -/
theorem cutLink_spec (n : StationId) (s : State) :
    let l := (s.st n).link
    let exchanging := l.state = .break ∨ l.state = .delimit ∨ l.state = .send ∨ l.state = .awaitAnswer ∨ l.state = .receive
    (cutLink n s).ctx n = s.ctx n ∧ (cutLink n s).engine = s.engine ∧
    ((cutLink n s).st n).power = (s.st n).power ∧ (∀ c, (cutLink n s).chan n c = s.chan n c) ∧
    (exchanging → Recovering n s (cutLink n s)) ∧ (¬exchanging → ((cutLink n s).st n).link = { l with waiting := false }) := by
  dsimp only
  have hrec := (enterRecover_recovering n s).2
  have hst : (enterRecover n s).st n = { s.st n with link := ((enterRecover n s).st n).link } := by
    unfold enterRecover putLink
    dsimp only
    split <;> simp
  have hset : ∀ l : Link, ((s.setLink n l).st n) = { s.st n with link := l } := fun l => setSt_st_self ..
  have hchan : ∀ (t : State) (l : Link), t.st n = { s.st n with link := l } → ∀ c, t.chan n c = s.chan n c := by
    intro t l ht c
    unfold State.chan
    rw [ht]
  refine ⟨cutLink_ctx n n s, ?_, ?_, fun c => ?_, fun h => ?_, fun h => ?_⟩
  · unfold cutLink
    split
    case h_1 | h_2 | h_3 | h_4 | h_5 => exact enterRecover_engine n s
    all_goals rfl
  · unfold cutLink
    split
    case h_1 | h_2 | h_3 | h_4 | h_5 => rw [hst]
    all_goals rw [hset]
  · unfold cutLink
    split
    case h_1 | h_2 | h_3 | h_4 | h_5 => exact hchan _ _ hst c
    all_goals exact hchan _ _ (hset _) c
  · have heq : cutLink n s = enterRecover n s := by
      unfold cutLink
      rcases h with h | h | h | h | h <;> rw [h]
    rw [heq]
    exact hrec
  · unfold cutLink
    split
    case h_1 e => exact absurd (Or.inl e) h
    case h_2 e => exact absurd (Or.inr (Or.inl e)) h
    case h_3 e => exact absurd (Or.inr (Or.inr (Or.inl e))) h
    case h_4 e => exact absurd (Or.inr (Or.inr (Or.inr (Or.inl e)))) h
    case h_5 e => exact absurd (Or.inr (Or.inr (Or.inr (Or.inr e)))) h
    all_goals rw [hset]

/-- What the block's part leaves of the station (R76, R92). -/
theorem cutBlock_station (n : StationId) (st : InFlight) {s : State} (hr : (s.st n).power.supply ≠ .ramping) :
    let p := cutBlock n st s
    p.ctx n = s.ctx n ∧ (p.st n).power = (s.st n).power ∧ LinkCut n st s p ∧
    (∀ c delay width, st.op = .press c delay width → st.handed = false → st.attached = true →
      p.chan n c = Channel.initial ∧ ∀ d, d ≠ c → p.chan n d = s.chan n d) ∧
    ((∀ c delay width, st.op ≠ .press c delay width) ∨ st.handed = true ∨ st.attached = false →
      ∀ c, p.chan n c = s.chan n c) := by
  dsimp only
  rcases cutBlock_cases n st hr with ⟨q, hop, hh, heq⟩ | ⟨c, delay, width, hop, hh, ha, heq⟩ | ⟨hq, hp, hrest⟩
  · obtain ⟨hctx, _, hpower, hchan, hexch, hwait⟩ := cutLink_spec n s
    rw [heq]
    refine ⟨hctx, hpower, ⟨fun _ _ _ => ⟨hexch, hwait⟩, fun h => ?_⟩, fun c d w hc => ?_, fun _ => hchan⟩
    · rcases h with h | h
      · exact absurd hop (h q)
      · rw [hh] at h
        cases h
    · rw [hop] at hc
      cases hc
  · obtain ⟨_, ⟨_, hst, _⟩, hctx, _⟩ := setChan_spec n c Channel.initial s
    have hlift := liftChan_chan n c (s := s)
    unfold liftChan at hlift
    rw [heq]
    unfold liftChan
    refine ⟨hctx, by rw [hst], ⟨fun q hq => ?_, fun _ => by rw [hst]⟩, fun c' d w hc _ _ => ?_, fun h => ?_⟩
    · rw [hop] at hq
      cases hq
    · rw [hop] at hc
      cases hc
      exact ⟨by rw [hlift, if_pos rfl], fun e he => by rw [hlift, if_neg he]⟩
    · rcases h with h | h | h
      · exact absurd hop (h c delay width)
      · rw [hh] at h
        cases h
      · rw [ha] at h
        cases h
  · have hst : (cutBlock n st s).st n = s.st n := by
      rcases hrest with heq | ⟨l, heq⟩ | ⟨slot, heq⟩ | heq <;> rw [heq]
      · rfl
      · exact abandonCollect_st ..
      · exact (leaveArrived_untouched n s).1
    refine ⟨congrArg Station.ctx hst, by rw [hst], ⟨fun q hop hh => ?_, fun _ => by rw [hst]⟩, fun c d w hop hh ha => ?_,
      fun _ c => by unfold State.chan; rw [hst]⟩
    · rcases hq with hq | hq
      · exact absurd hop (hq q)
      · rw [hh] at hq
        cases hq
    · rcases hp with hp | hp | hp
      · exact absurd hop (hp c d w)
      · rw [hh] at hp
        cases hp
      · rw [ha] at hp
        cases hp

/-! ### The end of the step and the units it frees -/

/-- The arbiter leaves a station with no step in flight, and takes waiting stations off the list. -/
theorem arbitrate_frame {n : StationId} {s : State} (h : (s.ctx n).step = none) :
    (arbitrate s).st n = s.st n ∧ (∀ e ∈ (arbitrate s).waitList, e ∈ s.waitList) := by
  unfold arbitrate
  refine foldl_keeps_prop (P := fun t => t.st n = s.st n ∧ ∀ e ∈ t.waitList, e ∈ s.waitList) (f := arbitrateUnit)
    (fun {t} u ht => ?_) _ ⟨rfl, fun _ => id⟩
  obtain ⟨hst, hw⟩ := ht
  have hstep : (t.ctx n).step = none := by rw [State.ctx, hst]; exact h
  unfold arbitrateUnit
  split
  · split
    · exact ⟨hst, hw⟩
    · next e rest hl =>
      unfold grantUnit
      refine ⟨?_, fun x hx => hw x ?_⟩
      · by_cases hn : n = e.station
        · have hb : ((bindUnit u e.station e.slot e.arm { t with waitList := rest }).ctx e.station).step = none := by
            rw [← hn]
            exact hstep
          rw [endStep_none hb]
          exact hst
        · rw [endStep_st_ne _ hn]
          exact hst
      · rw [endStep_waitList] at hx
        rw [hl]
        exact List.mem_cons_of_mem _ hx
  · exact ⟨hst, hw⟩

/-- A step that ends from outside, the grants that follow it, and the send that may begin. -/
def stepCut (n : StationId) (code : Code) (result : List Byte) (p : State) : State :=
  noticeKick (arbitrate (endStep n code result p))

theorem stepCut_spec {n : StationId} {st : InFlight} {p : State} (hs : (p.ctx n).step = some st) (code : Code)
    (result : List Byte) :
    let t := stepCut n code result p
    StepEndsAmid n st code result p t ∧ t.st n = { p.st n with ctx := t.ctx n } ∧ t.cohorts = p.cohorts ∧
    (∀ l, t.line l = p.line l) ∧ (∀ e ∈ t.waitList, e ∈ p.waitList) ∧
    (p.waitList = [] ∨ (∀ u, (p.unit u).state ≠ .free) → t.waitList = p.waitList ∧ ∀ u, t.unit u = p.unit u) := by
  have hends : StepEndsAmid n st code result p (endStep n code result p) := stepEndsAmid_of hs rfl rfl rfl code result
  have hst := (endStep_ends hs code result).2.2
  have hnone : ((endStep n code result p).ctx n).step = none := by rw [hends.1]; rfl
  obtain ⟨hast, haw⟩ := arbitrate_frame hnone
  have hctl : (arbitrate (endStep n code result p)).ctl = (endStep n code result p).ctl := ctl_of_fixed (by simp)
  unfold stepCut
  dsimp only
  refine ⟨?_, ?_, ?_, fun l => ?_, fun e he => ?_, fun h => ?_⟩
  · refine ⟨?_, outcomeOffered_noticeKick (outcomeOffered_kept hends.2 (congrArg Station.ctx hast) hctl fun K => K.arbitrate)⟩
    rw [noticeKick_ctx, State.ctx, hast]
    exact hends.1
  · have hctx : (noticeKick (arbitrate (endStep n code result p))).ctx n = (endStep n code result p).ctx n := by
      rw [noticeKick_ctx, State.ctx, hast]
    rw [noticeKick_st, hast, hctx]
    exact hst
  · simp
  · cases l <;> simp [State.line]
  · have hmem := haw e (by simpa using he)
    rwa [endStep_waitList] at hmem
  · have hid : arbitrate (endStep n code result p) = endStep n code result p := by
      rcases h with h | h
      · exact arbitrate_nil (by rw [endStep_waitList]; exact h)
      · unfold arbitrate
        exact foldl_arbitrate_of_taken (fun v => by rw [endStep_unit]; exact h v) _
    rw [hid]
    refine ⟨by simp, fun u => ?_⟩
    unfold State.unit
    simp

/-- The one unit that the step has freed goes to the head of the unit wait list. -/
theorem stepCut_grants {n : StationId} {st : InFlight} {p : State} {u : UnitId} {w : WaitEntry} {rest : List WaitEntry}
    (hs : (p.ctx n).step = some st) (code : Code) (result : List Byte) (ha : p.ctl.state = .active)
    (hw : p.waitList = w :: rest) (hu : (p.unit u).state = .free) (hv : ∀ v, v ≠ u → (p.unit v).state ≠ .free) :
    let t := stepCut n code result p
    t.waitList = rest ∧ (t.unit u).binding = some (w.station, w.slot) ∧ (t.unit u).arm = w.arm := by
  have hgrant : arbitrate (endStep n code result p) = grantUnit u w { endStep n code result p with waitList := rest } :=
    arbitrate_grants (by rw [endStep_ctl]; exact ha) (by rw [endStep_waitList]; exact hw) (by rw [endStep_unit]; exact hu)
      fun v hvu => by rw [endStep_unit]; exact hv v hvu
  have hbound := boundUnit_spec { endStep n code result p with waitList := rest } w.station w.slot w.arm
  have hunit : ∀ t : State, (noticeKick t).unit u = t.unit u := fun t => by unfold State.unit; simp
  unfold stepCut
  dsimp only
  rw [hunit, hgrant]
  unfold grantUnit
  rw [endStep_unit]
  unfold bindUnit
  rw [unit_setUnit, if_pos rfl, noticeKick_waitList, endStep_waitList]
  exact ⟨rfl, hbound.1, hbound.2.1⟩

/-! ### What comes before a halt from outside (R115, R117) -/

theorem setCtx_st_self (s : State) (n : StationId) (x : Context) : (s.setCtx n x).st n = { s.st n with ctx := x } :=
  setSt_st_self s n _

/-- Before a halt from outside acts on a station, its event has changed the supply and the seat, set at most its attention
bit, queued its part-half write, and given the units further edges to take. -/
structure Approach (n : StationId) (r : Option HaltReason) (s u : State) : Prop where
  others : OthersKept n s u
  notice : NoticeAt n s u
  ctx : u.ctx n = { s.ctx n with pendingHalt := r }
  link : (u.st n).link = (s.st n).link
  chan : ∀ c, u.chan n c = s.chan n c
  unit : ∀ v, OnlyInbox (s.unit v) (u.unit v)
  waitList : u.waitList = s.waitList
  fetch : u.engine.inQueue (.fetch n) = s.engine.inQueue (.fetch n)

namespace Approach

variable {n : StationId} {r : Option HaltReason} {s u : State}

theorem refl (n : StationId) (s : State) : Approach n (s.ctx n).pendingHalt s s :=
  ⟨.refl s, Or.inl (.refl s), rfl, rfl, fun _ => rfl, fun _ => rfl, rfl, rfl⟩

theorem setPending (h : Approach n r s u) (r' : Option HaltReason) :
    Approach n r' s (u.setCtx n { u.ctx n with pendingHalt := r' }) where
  others := h.others.trans (.setCtx _ n _)
  notice := h.notice.setCtx _
  ctx := by rw [setCtx_ctx_self, h.ctx]
  link := by
    unfold State.setCtx
    rw [setSt_st_self]
    exact h.link
  chan c := by
    unfold State.chan State.setCtx
    rw [setSt_st_self]
    exact h.chan c
  unit := h.unit
  waitList := h.waitList
  fetch := h.fetch

theorem setPower (h : Approach n r s u) (x : Power) : Approach n r s (u.setPower n x) where
  others := h.others.trans (.setPower _ n _)
  notice := h.notice.trans ⟨rfl, rfl, rfl, rfl, rfl⟩
  ctx := by
    rw [State.ctx, setPower_st_self]
    exact h.ctx
  link := by
    rw [setPower_st_self]
    exact h.link
  chan c := by
    unfold State.chan
    rw [setPower_st_self]
    exact h.chan c
  unit := h.unit
  waitList := h.waitList
  fetch := h.fetch

theorem queuePartHalf (h : Approach n r s u) : Approach n r s (queuePartHalf n u) where
  others := h.others.trans (.queuePartHalf _ n n)
  notice := h.notice.trans ((noticeSame_kept u).partHalf (.refl u) n trivial)
  ctx := by
    rw [queuePartHalf_ctx]
    exact h.ctx
  link := by
    rw [queuePartHalf_st]
    exact h.link
  chan c := by
    unfold State.chan
    rw [queuePartHalf_st]
    exact h.chan c
  unit v := by
    unfold State.unit
    rw [queuePartHalf_units]
    exact h.unit v
  waitList := by rw [queuePartHalf_waitList, h.waitList]
  fetch := by rw [queuePartHalf_inQueue_fetch, h.fetch]

theorem setAttention (h : Approach n r s u) : Approach n r s (setAttention n.1 u) where
  others := h.others.trans (.setAttention _ n _)
  notice := h.notice.setAttention
  ctx := by
    rw [setAttention_ctx]
    exact h.ctx
  link := by
    rw [setAttention_st]
    exact h.link
  chan c := by
    unfold State.chan
    rw [setAttention_st]
    exact h.chan c
  unit v := by
    unfold State.unit
    rw [setAttention_units]
    exact h.unit v
  waitList := by rw [setAttention_waitList, h.waitList]
  fetch := by rw [setAttention_engine, h.fetch]

theorem emitEdge (h : Approach n r s u) (sig : Signal) (high : Bool) : Approach n r s (emitEdge n sig high u) where
  others := h.others.trans (.of_onlyStationUnits ⟨rfl, fun _ _ => rfl⟩ rfl fun v _ =>
    onlyInbox_of_unitsSee (emitEdge_unitsSee n sig high u) v)
  notice := h.notice.trans ⟨rfl, rfl, rfl, rfl, rfl⟩
  ctx := h.ctx
  link := h.link
  chan := h.chan
  unit v := onlyInbox_trans (h.unit v) (onlyInbox_of_unitsSee (emitEdge_unitsSee n sig high u) v)
  waitList := h.waitList
  fetch := h.fetch

theorem setSupply (h : Approach n r s u) (x : SupplyState) : Approach n r s (setSupply n x u) := by
  unfold Machine.setSupply
  dsimp only
  split
  · exact h
  · exact (h.setPower _).queuePartHalf

end Approach

/-! ### The step ended from outside (R33, R40) -/

theorem onlyInbox_state {x y : MeasUnit} (h : OnlyInbox x y) : y.state = x.state := by
  unfold OnlyInbox at h
  rw [h]

theorem slotUnit_congr {s u : State} (h : ∀ v, (u.unit v).binding = (s.unit v).binding) (n : StationId) (slot : SlotId) :
    u.slotUnit n slot = s.slotUnit n slot := by
  unfold State.slotUnit
  simp only [h]

theorem linkCut_congr {n : StationId} {st : InFlight} {s t s' t' : State} (h : LinkCut n st s t)
    (hs : (s'.st n).link = (s.st n).link) (ht : (t'.st n).link = (t.st n).link) : LinkCut n st s' t' := by
  unfold LinkCut Recovering at h ⊢
  rw [hs, ht]
  exact h

/-- The block's part of a step ended from outside, seen from before its event. -/
theorem blockCut_of_approach {n : StationId} {st : InFlight} {r : Option HaltReason} {s u : State} (h : Approach n r s u)
    (hs : (s.ctx n).step = some st) (hr : (u.st n).power.supply ≠ .ramping) (code : Code) (result : List Byte) :
    BlockCut n st s (stepCut n code result (cutBlock n st u)) := by
  obtain ⟨hctx, _, hlink, hpress, hnopress⟩ := cutBlock_station n st hr
  have hstep : ((cutBlock n st u).ctx n).step = some st := by rw [hctx, h.ctx]; exact hs
  obtain ⟨_, hst, hcoh, hline, hsub, hsame⟩ := stepCut_spec hstep code result
  have hgrants := fun v w rest => stepCut_grants (u := v) (w := w) (rest := rest) hstep code result
  have hchan : ∀ c, (stepCut n code result (cutBlock n st u)).chan n c = (cutBlock n st u).chan n c := fun c => by
    unfold State.chan
    rw [hst]
  have hcohort : ∀ k, (stepCut n code result (cutBlock n st u)).cohort k = (cutBlock n st u).cohort k := fun k => by
    unfold State.cohort
    rw [hcoh]
  have hbind : ∀ v, (u.unit v).binding = (s.unit v).binding := fun v => onlyInbox_binding (h.unit v)
  have hstate : ∀ v, (u.unit v).state = (s.unit v).state := fun v => onlyInbox_state (h.unit v)
  refine ⟨linkCut_congr hlink h.link.symm (by rw [hst]), fun c d w hop hh ha => ?_, fun hp c => ?_, fun slot arm hop hh => ?_,
    fun slot v hop hv => ?_, fun line channel delay width k hop hh hk => ?_⟩
  · obtain ⟨h1, h2⟩ := hpress c d w hop hh ha
    exact ⟨by rw [hchan, h1], fun e he => by rw [hchan, h2 e he, h.chan]⟩
  · rw [hchan, hnopress hp, h.chan]
  · have heq : cutBlock n st u = { u with waitList := u.waitList.filter fun e => e.station != n } := by
      unfold cutBlock cutTaken
      rw [if_neg (by rw [hh]; exact Bool.false_ne_true), hop]
    rw [heq, h.waitList] at hsub hsame ⊢
    refine ⟨fun w hw => ?_, fun hfree => (hsame (Or.inr fun v => ?_)).1⟩
    · simpa using (List.mem_filter.mp (hsub w hw)).2
    · have hv := hfree v
      rw [← hstate v] at hv
      exact hv
  · have heq : cutBlock n st u = u.setUnit v MeasUnit.initial := by
      have habandon : abandonCollect n slot u = u.setUnit v MeasUnit.initial := by
        unfold abandonCollect
        rw [slotUnit_congr hbind, hv]
        rfl
      unfold cutBlock cutTaken cutHanded
      rw [hop]
      split <;> exact habandon
    have hunit : ∀ x, (u.setUnit v MeasUnit.initial).unit x = if x = v then MeasUnit.initial else u.unit x :=
      fun x => unit_setUnit ..
    rw [heq] at hsame hgrants ⊢
    refine ⟨fun hw => ?_, fun w rest st' hw hact hfree hne _ _ => ?_⟩
    · rw [(hsame (Or.inl (h.waitList.trans hw))).2, hunit, if_pos rfl]
    · refine hgrants v w rest (by rw [setUnit_ctl, h.others.ctl]; exact hact) (h.waitList.trans hw) ?_ fun x hx => ?_
      · rw [hunit, if_pos rfl]
        rfl
      · rw [hunit, if_neg hx, hstate]
        exact hfree x
  · have hk' : (u.ctx n).cohort = some k := by rw [h.ctx]; exact hk
    have hc : ∀ j, u.cohort j = s.cohort j := h.others.cohort
    have heq : cutBlock n st u = leaveArrived n u := by
      unfold cutBlock cutTaken
      rw [if_neg (by rw [hh]; exact Bool.false_ne_true), hop]
    rw [heq] at hcohort hline hcoh ⊢
    refine ⟨?_, fun harr hlive => ?_⟩
    · rw [hcohort]
      exact leaveArrived_gone hk'
    · obtain ⟨_, _, hw⟩ := leaveArrived_withdraws hk' (by rw [hc]; exact hlive) (by rw [hc]; exact harr)
      unfold ArrivalWithdrawn at hw ⊢
      rw [hcohort, ← hc k]
      obtain ⟨h1, h2, h3, h4, h5, h6⟩ := hw
      exact ⟨h1, h2, h3, h4, h5, fun l => lineJudged_congr (h6 l) (h.others.line l).symm (hline l) hcoh⟩

/-- A step ended from outside, its station on the way to HALTED. -/
theorem cutTowardHalt_of_approach {n : StationId} {st : InFlight} {r : HaltReason} {s u : State}
    (h : Approach n (some r) s u) (hs : (s.ctx n).step = some st) (hr : (u.st n).power.supply ≠ .ramping) (code : Code) :
    CutTowardHalt n st code r s (noticeKick (endFromOutside n code u)) ∧
    ((noticeKick (endFromOutside n code u)).st n).power = (u.st n).power := by
  obtain ⟨hctx, hpower, _⟩ := cutBlock_station n st hr
  have hnow : (cutBlock n st u).now = s.now := by
    have hfix : fixed (cutBlock n st u) = fixed u := cutBlock_fixed n st u
    unfold State.now
    rw [time_of_fixed hfix]
    exact h.others.now
  have hstep : ((cutBlock n st u).ctx n).step = some st := by rw [hctx, h.ctx]; exact hs
  have heq : noticeKick (endFromOutside n code u) = stepCut n code (outsideResult u n st code) (cutBlock n st u) := by
    unfold endFromOutside stepCut
    rw [cutFromOutside_some (by rw [h.ctx]; exact hs)]
  rw [heq]
  have hblock := blockCut_of_approach h hs hr code (outsideResult u n st code)
  obtain ⟨⟨htctx, hoff⟩, hst, _⟩ := stepCut_spec hstep code (outsideResult u n st code)
  generalize stepCut n code (outsideResult u n st code) (cutBlock n st u) = t at htctx hoff hst hblock ⊢
  have htpower : (t.st n).power = (u.st n).power := by rw [hst]; exact hpower
  have hresult : outsideResult u n st code = outsideBytes s t n st code := by
    rw [outsideResult_eq_outsideBytes]
    unfold outsideBytes
    rw [h.link, htpower]
  have hbytes : endBytes (cutBlock n st u) n st code (outsideResult u n st code) = endBytes s n st code (outsideBytes s t n st code) := by
    rw [hresult]
    unfold endBytes
    rw [hctx, h.ctx, hnow]
  rw [hbytes] at hoff
  unfold endedCtx at htctx
  rw [hctx, h.ctx] at htctx
  refine ⟨⟨?_, ?_, ?_, ?_, ?_, ?_, ?_, ?_, hoff, hblock⟩, htpower⟩ <;> rw [htctx]

/-! ### The part half that the event has queued stays queued (R3) -/

theorem partHalfQueued_congr {n : StationId} {P : List Byte → Prop} {s t : State} (he : t.engine = s.engine)
    (h : PartHalfQueued n P s) : PartHalfQueued n P t := by
  unfold PartHalfQueued
  rw [he]
  exact h

theorem partHalfQueued_arbitrate {n : StationId} {P : List Byte → Prop} {s : State} (h : PartHalfQueued n P s) :
    PartHalfQueued n P (arbitrate s) := by
  unfold arbitrate
  refine foldl_keeps_prop (f := arbitrateUnit) (fun {t} u ht => ?_) _ h
  unfold arbitrateUnit
  split
  · split
    · exact ht
    · exact partHalfQueued_endStep (s := bindUnit u _ _ _ { t with waitList := _ }) ht _ _
  · exact ht

theorem partHalfQueued_releaseRound {n : StationId} {P : List Byte → Prop} {s : State} (k : CohortId) (h : PartHalfQueued n P s) :
    PartHalfQueued n P (releaseRound k s) := by
  unfold releaseRound
  dsimp only
  refine foldl_keeps_prop (P := PartHalfQueued n P) (fun {t} a ht => ?_) (s.cohort k).arrived h
  unfold releaseStation
  dsimp only
  exact partHalfQueued_endStep (partHalfQueued_congr (by rw [startUnits_engine, releasePulse_engine]) ht) _ _

theorem partHalfQueued_settleCohort {n : StationId} {P : List Byte → Prop} {s : State} (k : CohortId) (h : PartHalfQueued n P s) :
    PartHalfQueued n P (settleCohort k s) := by
  obtain ⟨v, hv, hcases⟩ := settleCohort_cases k s
  rw [hv]
  refine partHalfQueued_congr (s := v) (by simp) ?_
  rcases hcases with rfl | ⟨x, rfl⟩
  · exact partHalfQueued_releaseRound k h
  · exact h

theorem partHalfQueued_leaveArrived {n m : StationId} {P : List Byte → Prop} {s : State} (h : PartHalfQueued n P s) :
    PartHalfQueued n P (leaveArrived m s) := by
  unfold leaveArrived
  split
  · exact h
  · split
    · exact partHalfQueued_settleCohort _ (partHalfQueued_congr rfl h)
    · exact h

theorem partHalfQueued_cutBlock {n : StationId} {st : InFlight} {P : List Byte → Prop} {s : State}
    (hr : (s.st n).power.supply ≠ .ramping) (h : PartHalfQueued n P s) : PartHalfQueued n P (cutBlock n st s) := by
  rcases cutBlock_cases n st hr with ⟨_, _, _, heq⟩ | ⟨_, _, _, _, _, _, heq⟩ | ⟨_, _, heq | ⟨_, heq⟩ | ⟨_, heq⟩ | heq⟩ <;> rw [heq]
  · exact partHalfQueued_congr (cutLink_spec n s).2.1 h
  · unfold liftChan
    exact partHalfQueued_congr (by simp) h
  · exact h
  · exact partHalfQueued_congr rfl h
  · exact partHalfQueued_congr (by simp) h
  · exact partHalfQueued_leaveArrived h

/-! ### A halt from outside (R33) -/

/-- A station that enters HALTED keeps its supply, its link and its inputs. -/
theorem enterHalted_st (n : StationId) (r : HaltReason) (s : State) :
    (enterHalted n r s).st n =
      { s.st n with ctx := (enterHalted n r s).ctx n, chans := ((enterHalted n r s).st n).chans } := by
  obtain ⟨hrctx, _, hunit, hwait, _⟩ := released_spec n r s
  have hst : (released n r s).st n = { s.st n with ctx := (released n r s).ctx n, chans := ((released n r s).st n).chans } := by
    unfold released
    generalize hc : ({ s.ctx n with
      state := .halted, halt := r, deadline := none, skipDebt := 0, badMark := false, step := none, posting := .none,
      backlog := none, pendingHalt := none } : Context) = c
    have hlift := (liftAll_spec n (s.setCtx n c)).1.st
    rw [setCtx_st_self] at hlift
    generalize liftAll n (s.setCtx n c) = p at hlift ⊢
    have he := st_congr (abandonUnits_stations n p) n
    rw [State.ctx, he, hlift]
  have hend : (enterHalted n r s).st n = (released n r s).st n := by
    rw [enterHalted_eq, queuePartHalf_st, setAttention_st, (leaveLive_untouched n _).1]
    generalize released n r s = p at hrctx hunit hwait ⊢
    rw [(arbitrate_frame (by rw [hrctx])).1]
  rw [State.ctx, hend]
  exact hst

theorem enterHalted_power (n : StationId) (r : HaltReason) (s : State) :
    ((enterHalted n r s).st n).power = (s.st n).power := by rw [enterHalted_st]

/-- What a halt from outside finds to do. -/
theorem haltFromOutside_rests {n : StationId} {u : State} (r : HaltReason) (code : Code)
    (h : (u.ctx n).state = .idle ∨ (u.ctx n).state = .halted ∨ ¬Undisturbed u n) : haltFromOutside n r code u = u := by
  unfold haltFromOutside
  dsimp only
  split
  · rfl
  · next hund =>
    have hu : Undisturbed u n := by
      simp only [not_or, Bool.not_eq_true, Option.isSome_eq_false_iff, Option.isNone_iff_eq_none] at hund
      exact hund
    rcases h with h | h | h
    · rw [h]
    · rw [h]
    · exact absurd hu h

theorem haltFromOutside_acts {n : StationId} {u : State} (r : HaltReason) (code : Code) (h : Undisturbed u n) :
    let t := u.setCtx n { u.ctx n with pendingHalt := some r }
    ((u.ctx n).state = .ready → haltFromOutside n r code u = enterHalted n r u) ∧
    ((u.ctx n).state = .fetching → haltFromOutside n r code u = abortFetch n t) ∧
    ((u.ctx n).state = .running ∨ (u.ctx n).state = .waitingUnit ∨ (u.ctx n).state = .atBarrier →
      haltFromOutside n r code u = endFromOutside n code t) ∧
    ((u.ctx n).state = .posting → haltFromOutside n r code u = t) := by
  obtain ⟨hd, hp, hh⟩ := h
  have hgo : ¬((u.ctx n).disabling = true ∨ (u.ctx n).pendingHalt.isSome = true ∨ (u.ctx n).posting.halts.isSome = true) := by
    rw [hd, hp, hh]
    simp
  unfold haltFromOutside
  dsimp only
  rw [if_neg hgo]
  refine ⟨fun hs => ?_, fun hs => ?_, fun hs => ?_, fun hs => ?_⟩
  · rw [hs]
  · rw [hs]
  · rcases hs with hs | hs | hs <;> rw [hs]
  · rw [hs]

/-- A fetch phase that a halt from outside ends (R33, R39). -/
theorem abortFetch_halts {n : StationId} {r : HaltReason} {s u : State} (h : Approach n (some r) s u)
    (hd : (s.ctx n).disabling = false) :
    abortFetch n u = u ∧ s.fetchLeft n = true ∨
    s.fetchLeft n = false ∧ ∃ v, abortFetch n u = enterHalted n r v ∧ OthersKept n s v ∧ NoticeAt n s v ∧
      v.ctx n = { s.ctx n with pendingHalt := some r, backlog := none, taken := (s.ctx n).taken - 1 } ∧
      (v.st n).power = (u.st n).power := by
  have hleft : u.fetchLeft n = s.fetchLeft n := by
    unfold State.fetchLeft State.active
    rw [h.fetch, h.others.ctl, h.ctx]
  unfold abortFetch
  rw [hleft]
  cases hl : s.fetchLeft n with
  | true => exact Or.inl ⟨if_pos rfl, rfl⟩
  | false =>
    refine Or.inr ⟨rfl, ?_⟩
    rw [if_neg Bool.false_ne_true]
    generalize hw : ({ u.setCtx n { u.ctx n with backlog := none } with
      engine := { u.engine with room := u.engine.room.filter fun q => q.kind != .fetch n } } : State) = w
    have hwctx : w.ctx n = { s.ctx n with pendingHalt := some r, backlog := none } := by
      rw [← hw]
      exact (setCtx_ctx_self u n _).trans (by rw [h.ctx])
    have hwpower : (w.st n).power = (u.st n).power := by
      have hu := congrArg Station.power (setCtx_st_self u n { u.ctx n with backlog := none })
      rw [← hw]
      exact hu
    have hkept : OthersKept n u w := hw ▸ (OthersKept.setCtx u n _).trans (.withdraw _ n)
    have hnotice : NoticeAt n s w := hw ▸ h.notice.trans ⟨rfl, rfl, rfl, rfl, rfl⟩
    rw [fetchFailed_halts (by rw [hwctx]; exact hd), hwctx]
    refine ⟨_, rfl, (h.others.trans hkept).trans (.setCtx _ n _), hnotice.setCtx _, setCtx_ctx_self .., ?_⟩
    unfold State.setCtx
    rw [setSt_st_self]
    exact hwpower

/-- What a halt from outside does to its station, the send that may begin included (R33). -/
theorem haltFromOutside_halts {n : StationId} {s u : State} (h : Approach n (s.ctx n).pendingHalt s u)
    (hr : (u.st n).power.supply ≠ .ramping) (r : HaltReason) (code : Code) :
    let t := noticeKick (haltFromOutside n r code u)
    (Undisturbed s n → ∀ st, InStep s n st → CutTowardHalt n st code r s t) ∧
    (Undisturbed s n → HaltsAtRest n r s t) ∧
    ((s.ctx n).state = .idle ∨ (s.ctx n).state = .halted ∨ ¬Undisturbed s n → t.ctx n = s.ctx n) := by
  have hctx : u.ctx n = s.ctx n := h.ctx
  have hund : Undisturbed u n ↔ Undisturbed s n := by
    unfold Undisturbed
    rw [hctx]
  have hpend := h.setPending (some r)
  dsimp only
  refine ⟨fun hu st ⟨hstep, hstate⟩ => ?_, fun hu => ⟨fun hs => ?_, fun hs => ?_, fun hs => ?_⟩, fun hs => ?_⟩
  · rw [(haltFromOutside_acts r code (hund.mpr hu)).2.2.1 (by rw [hctx]; exact hstate)]
    refine (cutTowardHalt_of_approach hpend hstep ?_ code).1
    unfold State.setCtx
    rw [setSt_st_self]
    exact hr
  · rw [(haltFromOutside_acts r code (hund.mpr hu)).1 (by rw [hctx]; exact hs)]
    refine ⟨(enterHalted_halts h.notice).1, enterHalted_departs_noticeKick h.others (by rw [hctx]), ?_⟩
    rw [noticeKick_ctx, enterHalted_ctx, hctx]
  · rw [(haltFromOutside_acts r code (hund.mpr hu)).2.1 (by rw [hctx]; exact hs)]
    rcases abortFetch_halts hpend hu.1 with ⟨heq, hl⟩ | ⟨hl, v, heq, hkept, hnotice, hvctx, _⟩
    · rw [hl, if_pos rfl, heq, noticeKick_ctx, setCtx_ctx_self, hctx]
    · rw [hl, if_neg Bool.false_ne_true, heq]
      refine ⟨(enterHalted_halts hnotice).1, enterHalted_departs_noticeKick hkept (by rw [hvctx]), ?_⟩
      rw [noticeKick_ctx, enterHalted_ctx, hvctx]
  · rw [(haltFromOutside_acts r code (hund.mpr hu)).2.2.2 (by rw [hctx]; exact hs), noticeKick_ctx, setCtx_ctx_self, hctx]
  · rw [haltFromOutside_rests r code (by rw [hctx, hund]; exact hs), noticeKick_ctx, hctx]

/-- What a halt from outside leaves of the supply and the seat, and what it keeps of the event's notices and part half. -/
structure HaltKeeps (n : StationId) (s u t : State) : Prop where
  power : (t.st n).power = (u.st n).power
  notice : NoticeAt n s t
  reports : ∀ P : List Byte → Prop, (∀ x : Station, x.power = (u.st n).power → P (partHalfBytes x u.now)) →
    PartHalfReports n P u → PartHalfReports n P t

theorem haltKeeps_enterHalted {n : StationId} {s u v : State} (r : HaltReason) (hn : NoticeAt n s v)
    (hp : (v.st n).power = (u.st n).power) (ht : v.now = u.now) : HaltKeeps n s u (enterHalted n r v) where
  power := (enterHalted_power n r v).trans hp
  notice := (noticeAt_kept n s).enterHalted hn rfl
  reports P hP _ := by
    intro htakes
    have hpower := enterHalted_power n r v
    have hnow : (enterHalted n r v).now = v.now := by
      unfold State.now
      rw [time_of_fixed (enterHalted_fixed n r v)]
    rw [enterHalted_eq] at htakes hpower hnow ⊢
    rw [queuePartHalf_st] at hpower
    rw [queuePartHalf_now] at hnow
    refine PartHalfQueued.imp (fun bytes hb => ?_) rfl (queuePartHalf_reports n _ htakes)
    rw [hb, hnow, ht]
    exact hP _ (hpower.trans hp)

/-- A step cut, or what the arbiter does where none is in flight. -/
theorem haltKeeps_endFromOutside {n : StationId} {r : HaltReason} {s u v : State} (h : Approach n (some r) s v)
    (hr : (v.st n).power.supply ≠ .ramping) (hp : (v.st n).power = (u.st n).power) (he : v.engine = u.engine)
    (hc : v.ctl = u.ctl) (code : Code) : HaltKeeps n s u (endFromOutside n code v) where
  power := by
    cases hs : (s.ctx n).step with
    | some st =>
      have hpower := (cutTowardHalt_of_approach h hs hr code).2
      rw [noticeKick_st] at hpower
      exact hpower.trans hp
    | none =>
      have hv : (v.ctx n).step = none := by rw [h.ctx]; exact hs
      unfold endFromOutside
      rw [cutFromOutside_none hv, (arbitrate_frame hv).1]
      exact hp
  notice := (noticeAt_kept n s).arbitrate ((noticeAt_kept n s).cutFromOutside h.notice rfl)
  reports P _ hu := by
    intro htakes
    have hq : PartHalfQueued n P v := partHalfQueued_congr he
      (hu ((takesWrites_congr ((ctl_of_fixed (endFromOutside_fixed n code v)).trans hc)).mp htakes))
    unfold endFromOutside cutFromOutside
    refine partHalfQueued_arbitrate ?_
    split
    · exact hq
    · exact partHalfQueued_endStep (partHalfQueued_cutBlock hr hq) _ _

theorem haltKeeps_haltFromOutside {n : StationId} {s u : State} (h : Approach n (s.ctx n).pendingHalt s u)
    (hr : (u.st n).power.supply ≠ .ramping) (r : HaltReason) (code : Code) : HaltKeeps n s u (haltFromOutside n r code u) := by
  have hself : HaltKeeps n s u u := ⟨rfl, h.notice, fun _ _ hu => hu⟩
  by_cases hu : Undisturbed u n
  · obtain ⟨hready, hfetch, hstep, hpost⟩ := haltFromOutside_acts r code hu
    have hpend := h.setPending (some r)
    have hpower : ((u.setCtx n { u.ctx n with pendingHalt := some r }).st n).power = (u.st n).power := by rw [setCtx_st_self]
    have hset : HaltKeeps n s u (u.setCtx n { u.ctx n with pendingHalt := some r }) := ⟨hpower, hpend.notice, fun _ _ hu => hu⟩
    cases hs : (u.ctx n).state with
    | ready =>
      rw [hready hs]
      exact haltKeeps_enterHalted r h.notice rfl rfl
    | fetching =>
      rw [hfetch hs]
      rcases abortFetch_halts hpend (by have hd := hu.1; rw [h.ctx] at hd; exact hd) with ⟨heq, _⟩ | ⟨_, v, heq, hkept, hnotice, _, hv⟩
      · rw [heq]
        exact hset
      · rw [heq]
        exact haltKeeps_enterHalted r hnotice (hv.trans hpower) (hkept.now.trans h.others.now.symm)
    | posting =>
      rw [hpost hs]
      exact hset
    | running | waitingUnit | atBarrier =>
      rw [hstep (by rw [hs]; simp)]
      exact haltKeeps_endFromOutside hpend (by rw [hpower]; exact hr) hpower rfl rfl code
    | idle | halted =>
      rw [haltFromOutside_rests r code (by rw [hs]; simp)]
      exact hself
  · rw [haltFromOutside_rests r code (Or.inr (Or.inr hu))]
    exact hself

/-! ### Trips (R113 to R115) -/

/-- What a trip has changed before it halts the station. -/
def tripped (n : StationId) (s : State) : State :=
  let t := setSupply n .tripped s
  queuePartHalf n (t.setPower n { (t.st n).power with tripCount := (t.st n).power.tripCount + 1 })

theorem tripSupply_eq (n : StationId) (s : State) :
    tripSupply n s = haltFromOutside n .supplyTrip .supplyTrip (tripped n s) := rfl

theorem tripped_spec (n : StationId) (s : State) :
    ((tripped n s).st n).power.supply = .tripped ∧
    ((tripped n s).st n).power.tripCount = (s.st n).power.tripCount + 1 ∧
    PartHalfReports n (fun bytes => bytes[11]? = some 3 ∧ bytes[15]? = some ((s.st n).power.tripCount + 1)) (tripped n s) := by
  obtain ⟨hsupply, _, hcount, _⟩ := setSupply_spec n .tripped s
  unfold tripped
  dsimp only
  generalize hu : (setSupply n .tripped s).setPower n { ((setSupply n .tripped s).st n).power with
    tripCount := ((setSupply n .tripped s).st n).power.tripCount + 1 } = u
  have hpower : (u.st n).power.supply = .tripped ∧ (u.st n).power.tripCount = (s.st n).power.tripCount + 1 := by
    rw [← hu, setPower_st_self]
    exact ⟨hsupply, by rw [← hcount]⟩
  rw [queuePartHalf_st]
  refine ⟨hpower.1, hpower.2, fun ht => PartHalfQueued.imp (fun bytes hb => ?_) rfl (queuePartHalf_reports n u ht)⟩
  have htrips : ∀ (x : Station) (w : Word), (partHalfBytes x w)[15]? = some x.power.tripCount := fun _ _ => rfl
  rw [hb, partHalfBytes_supply, htrips, hpower.1, hpower.2]
  exact ⟨rfl, rfl⟩

theorem approach_tripped {n : StationId} {r : Option HaltReason} {s u : State} (h : Approach n r s u) :
    Approach n r s (tripped n u) := ((h.setSupply .tripped).setPower _).queuePartHalf

theorem supplyEnable_of {n : StationId} {t : State} {x : SupplyState} (h : (t.st n).power.supply = x)
    (hx : x = .off ∨ x = .tripped) : t.supplyEnable n = false := by
  unfold State.supplyEnable
  rw [h]
  rcases hx with rfl | rfl <;> rfl

/-- Settles O50: the supply trips, and its station is halted from outside. -/
theorem tripStopsTheStation : Obligations.TripStopsTheStation := by
  intro s n i hi
  have hexec : exec i s = .next (noticeKick (tripSupply n s)) := by
    rcases hi with ⟨rfl, hrise, hsup⟩ | ⟨rfl, hon, hloss⟩
    · refine congrArg Host.Outcome.next (if_pos ?_)
      unfold tripDue
      rw [hrise]
      rcases hsup with h | h <;> rw [h] <;> rfl
    · exact congrArg Host.Outcome.next (if_pos (by simp [lossDue, hon, hloss]))
  have happ : Approach n (s.ctx n).pendingHalt s (tripped n s) := approach_tripped (.refl n s)
  obtain ⟨hsupply, hcount, hrep⟩ := tripped_spec n s
  have hr : ((tripped n s).st n).power.supply ≠ .ramping := by rw [hsupply]; nofun
  have hkeeps := haltKeeps_haltFromOutside happ hr .supplyTrip .supplyTrip
  obtain ⟨hcut, hrest, hstay⟩ := haltFromOutside_halts happ hr .supplyTrip .supplyTrip
  refine ⟨_, hexec, ?_⟩
  rw [tripSupply_eq]
  have hpower : ((noticeKick (haltFromOutside n .supplyTrip .supplyTrip (tripped n s))).st n).power =
      ((tripped n s).st n).power := by
    rw [noticeKick_st]
    exact hkeeps.power
  refine ⟨by rw [hpower, hsupply], by rw [hpower, hcount], supplyEnable_of (by rw [hpower, hsupply]) (Or.inr rfl),
    reports_noticeKick (hkeeps.reports _ (fun x hx => ?_) hrep), hcut, hrest, hstay⟩
  have htrips : (partHalfBytes x (tripped n s).now)[15]? = some x.power.tripCount := rfl
  rw [partHalfBytes_supply, htrips, hx, hsupply, hcount]
  exact ⟨rfl, rfl⟩

end Sys2Proof.Proofs
end

section
/-! PROOFS. The seat's changes, and the SUPPLY step (R105 to R117). -/

namespace Sys2Proof.Proofs

open Sys2Proof.Machine Sys2Proof.Laws

/-! ### A change of the debounced seat state (R107, R117) -/

/-- What a change of the seat does before it acts on the supply and the station. -/
def seatTaken (n : StationId) (closed : Bool) (s : State) : State :=
  queuePartHalf n (emitEdge n .seat closed (setAttention n.1 (s.setPower n { (s.st n).power with
    seated := closed, evaluated := true, run := 0, runDir := none, seatCount := (s.st n).power.seatCount + 1 })))

/-- The supply of an EMPTY seat (R117). -/
def unsupplied (n : StationId) (s : State) : State := if (s.st n).power.supply.trips then setSupply n .off s else s

theorem seatChanged_closed (n : StationId) (s : State) : seatChanged n true s = noticeKick (seatTaken n true s) := rfl

theorem seatChanged_open (n : StationId) (s : State) :
    seatChanged n false s = noticeKick (haltFromOutside n .unseated .unseated (unsupplied n (seatTaken n false s))) := rfl

theorem queuePartHalf_reports_of {n : StationId} {P : List Byte → Prop} {u : State} (h : P (partHalfBytes (u.st n) u.now)) :
    PartHalfReports n P (queuePartHalf n u) := fun ht =>
  PartHalfQueued.imp (fun bytes hb => by rw [hb]; exact h) rfl (queuePartHalf_reports n u ht)

theorem noticeSame_seatTaken (n : StationId) (closed : Bool) (s : State) :
    NoticeSame (setAttention n.1 s) (seatTaken n closed s) := by
  have h : ∀ p, NoticeSame (setAttention n.1 s) (setAttention n.1 (s.setPower n p)) := fun p =>
    noticeSame_setAttention (s := s) (t := s.setPower n p) ⟨rfl, rfl, rfl, rfl, rfl⟩ _
  have K := noticeSame_kept (setAttention n.1 s)
  exact K.partHalf (K.emitEdge (h _)) n trivial

theorem seatTaken_spec (n : StationId) (closed : Bool) (s : State) :
    (seatTaken n closed s).st n = { s.st n with power := { (s.st n).power with
      seated := closed, evaluated := true, run := 0, runDir := none, seatCount := (s.st n).power.seatCount + 1 } } ∧
    UnitsSee n .seat closed s (seatTaken n closed s) ∧ NoticeSame (setAttention n.1 s) (seatTaken n closed s) ∧
    Approach n (s.ctx n).pendingHalt s (seatTaken n closed s) ∧
    (∀ P : List Byte → Prop, P (partHalfBytes { s.st n with power := { (s.st n).power with
      seated := closed, evaluated := true, run := 0, runDir := none, seatCount := (s.st n).power.seatCount + 1 } } s.now) →
      PartHalfReports n P (seatTaken n closed s)) := by
  have hsame := noticeSame_seatTaken n closed s
  have happ : Approach n (s.ctx n).pendingHalt s (seatTaken n closed s) :=
    ((((Approach.refl n s).setPower _).setAttention).emitEdge .seat closed).queuePartHalf
  unfold seatTaken at hsame happ ⊢
  generalize hp : ({ (s.st n).power with
    seated := closed, evaluated := true, run := 0, runDir := none, seatCount := (s.st n).power.seatCount + 1 } : Power) = p
    at hsame happ ⊢
  have hst : (setAttention n.1 (s.setPower n p)).st n = { s.st n with power := p } := by
    rw [setAttention_st, setPower_st_self]
  refine ⟨by rw [queuePartHalf_st, emitEdge_st, hst], ?_, hsame, happ, fun P hP => queuePartHalf_reports_of ?_⟩
  · intro u
    have hu : (setAttention n.1 (s.setPower n p)).unit u = s.unit u := by
      unfold State.unit
      rw [setAttention_units]
      rfl
    have hnow : (setAttention n.1 (s.setPower n p)).now = s.now := by
      unfold State.now
      rw [setAttention_time]
      rfl
    have h := emitEdge_unitsSee n .seat closed (setAttention n.1 (s.setPower n p)) u
    rw [hu, hnow] at h
    unfold State.unit
    rw [queuePartHalf_units]
    exact h
  · have hnow : (emitEdge n .seat closed (setAttention n.1 (s.setPower n p))).now = s.now := by
      unfold State.now
      simp
    rw [emitEdge_st, hst, hnow]
    exact hP

theorem unsupplied_spec {n : StationId} {r : Option HaltReason} {s u : State} (h : Approach n r s u) :
    Approach n r s (unsupplied n u) ∧ (unsupplied n u).units = u.units ∧ NoticeSame u (unsupplied n u) ∧
    ((unsupplied n u).st n).power.supply =
      (if (u.st n).power.supply = .ramping ∨ (u.st n).power.supply = .on then .off else (u.st n).power.supply) ∧
    ((unsupplied n u).st n).power.seated = (u.st n).power.seated ∧
    ((unsupplied n u).st n).power.run = (u.st n).power.run ∧
    ((unsupplied n u).st n).power.seatCount = (u.st n).power.seatCount ∧
    ∀ P : List Byte → Prop, ((unsupplied n u).st n = u.st n → PartHalfReports n P u) →
      (∀ w, P (partHalfBytes ((unsupplied n u).st n) w)) → PartHalfReports n P (unsupplied n u) := by
  unfold unsupplied
  split
  · next ht =>
    have hne : (u.st n).power.supply ≠ .off := fun e => by rw [e] at ht; cases ht
    have hcond : (u.st n).power.supply = .ramping ∨ (u.st n).power.supply = .on := by
      revert ht
      cases (u.st n).power.supply <;> simp [SupplyState.trips]
    obtain ⟨v, heq, ⟨hf, _⟩, hst⟩ := setSupply_change (x := .off) hne
    rw [if_pos hcond]
    refine ⟨h.setSupply .off, by simp, (noticeSame_kept u).acts.setSupply (.refl u) trivial, ?_, ?_, ?_, ?_, fun P _ hP => ?_⟩
    any_goals rw [heq, queuePartHalf_st, hst]
    rw [heq, queuePartHalf_st] at hP
    rw [heq]
    exact queuePartHalf_reports_of (hP _)
  · next ht =>
    have hcond : ¬((u.st n).power.supply = .ramping ∨ (u.st n).power.supply = .on) := by
      revert ht
      cases (u.st n).power.supply <;> simp [SupplyState.trips]
    rw [if_neg hcond]
    exact ⟨h, rfl, .refl u, rfl, rfl, rfl, rfl, fun P hP _ => hP rfl⟩

/-- Where no step is in flight and no halt begins at once, a halt from outside leaves the units. -/
theorem haltFromOutside_units {n : StationId} {u : State} (r : HaltReason) (code : Code)
    (h : (u.ctx n).state = .idle ∨ (u.ctx n).state = .halted ∨ (u.ctx n).state = .posting ∨ ¬Undisturbed u n) :
    (haltFromOutside n r code u).units = u.units := by
  by_cases hu : Undisturbed u n
  · rcases h with h | h | h | h
    · rw [haltFromOutside_rests r code (Or.inl h)]
    · rw [haltFromOutside_rests r code (Or.inr (Or.inl h))]
    · rw [(haltFromOutside_acts r code hu).2.2.2 h]
      rfl
    · exact absurd hu h
  · rw [haltFromOutside_rests r code (Or.inr (Or.inr hu))]

theorem unitsSee_congr {n : StationId} {sig : Signal} {high : Bool} {s t t' : State} (h : UnitsSee n sig high s t)
    (hu : t'.units = t.units) : UnitsSee n sig high s t' := by
  intro u
  unfold State.unit
  rw [hu]
  exact h u

/-- A notice of a bit that the event has set already. -/
theorem NoticeAt.after {n : StationId} {s u t : State} (h : NoticeAt n u t) (hu : NoticeSame (Machine.setAttention n.1 s) u) :
    NoticeSame (Machine.setAttention n.1 s) t := by
  rcases h with h | h
  · exact hu.trans h
  · rw [setAttention_again _ (attention_of_noticeSame hu)] at h
    exact hu.trans h

/-- A change to SEATED. -/
theorem seatChanged_closed_spec (n : StationId) (s : State) :
    let t := seatChanged n true s
    (t.st n).power = { (s.st n).power with
      seated := true, evaluated := true, run := 0, runDir := none, seatCount := (s.st n).power.seatCount + 1 } ∧
    t.notice.attention.getLsbD n = true ∧ NoticeFollows n s t ∧ PartHalfReports n (ShowsPartHalf n t) t ∧
    t.ctx n = s.ctx n ∧ UnitsSee n .seat true s t := by
  obtain ⟨hst, hsee, hsame, _, _⟩ := seatTaken_spec n true s
  rw [seatChanged_closed]
  have hshow : PartHalfReports n (ShowsPartHalf n (seatTaken n true s)) (seatTaken n true s) := queuePartHalf_shows n _
  generalize seatTaken n true s = u at hst hsee hsame hshow ⊢
  refine ⟨by rw [noticeKick_st, hst], ?_, noticeFollows_noticeKick hsame, shows_noticeKick hshow, ?_,
    unitsSee_congr hsee (noticeKick_units u)⟩
  · rw [noticeKick_attention]
    exact attention_of_noticeSame hsame
  · rw [noticeKick_ctx, State.ctx, hst]

/-- Settles O51: the first evaluation, and the changes after it. -/
theorem seatChangesAfterTwentyTicks : Obligations.SeatChangesAfterTwentyTicks := by
  refine ⟨fun s n hev hrun => ⟨fun hdir => ?_, fun hdir => ?_⟩, fun s n hev hrun => ⟨fun hseat => ?_, fun hseat => ?_⟩⟩
  · have hdue : firstEvaluationDue s n = true := by simp [firstEvaluationDue, hev, hrun, Config.seatTicks]
    refine ⟨_, congrArg Host.Outcome.next ((if_pos hdue).trans (if_pos hdir)), ?_⟩
    obtain ⟨hp, ha, hn, hr, hc, hu⟩ := seatChanged_closed_spec n s
    exact ⟨by rw [hp], by rw [hp], by rw [hp], by rw [hp], ha, hn, hr, hc, hu⟩
  · have hdue : firstEvaluationDue s n = true := by simp [firstEvaluationDue, hev, hrun, Config.seatTicks]
    exact ⟨_, congrArg Host.Outcome.next ((if_pos hdue).trans (if_neg (by rw [hdir]; nofun))), onlyStation_setPower _ _ _,
      setPower_st_self _ _ _⟩
  · have hdue : seatChangeDue s n = true := by simp [seatChangeDue, hev, hrun, Config.seatTicks]
    refine ⟨_, congrArg Host.Outcome.next (if_pos hdue), ?_⟩
    rw [hseat]
    obtain ⟨hp, ha, hn, hr, hc, hu⟩ := seatChanged_closed_spec n s
    refine ⟨hp.trans ?_, ha, hn, hr, hc, hu⟩
    rw [← hev]
  · have hdue : seatChangeDue s n = true := by simp [seatChangeDue, hev, hrun, Config.seatTicks]
    refine ⟨_, congrArg Host.Outcome.next (if_pos hdue), ?_⟩
    rw [hseat]
    show _ = _ ∧ _
    obtain ⟨hst, hsee, hsame, happ, hrep⟩ := seatTaken_spec n false s
    rw [Bool.not_true, seatChanged_open]
    generalize seatTaken n false s = u at hst hsee hsame happ hrep ⊢
    obtain ⟨happ', hunits, hsame', hsupply, hseated, hrunz, hcount, hrep'⟩ := unsupplied_spec happ
    generalize unsupplied n u = v at happ' hunits hsame' hsupply hseated hrunz hcount hrep' ⊢
    rw [hst] at hsupply hseated hrunz hcount
    have hr : (v.st n).power.supply ≠ .ramping := by
      rw [hsupply]
      split
      · nofun
      · next h => exact fun e => h (Or.inl e)
    have hkeeps := haltKeeps_haltFromOutside (Approach.refl n v) hr .unseated .unseated
    obtain ⟨hcut, hrest, hstay⟩ := haltFromOutside_halts happ' hr .unseated .unseated
    have hpower : ((noticeKick (haltFromOutside n .unseated .unseated v)).st n).power = (v.st n).power := by
      rw [noticeKick_st]
      exact hkeeps.power
    have hnotice := hkeeps.notice.after (hsame.trans hsame')
    have hseatBytes : ∀ (x : Station) (w : Word), (partHalfBytes x w)[10]? = some (if x.power.seated then 1 else 0) ∧
        (partHalfBytes x w)[16]? = some x.power.seatCount := fun _ _ => ⟨rfl, rfl⟩
    have hbytes : ∀ (x : Station) (w : Word), x.power = (v.st n).power →
        (partHalfBytes x w)[10]? = some 0 ∧ (partHalfBytes x w)[16]? = some ((s.st n).power.seatCount + 1) ∧
        (partHalfBytes x w)[11]? = some (BitVec.ofNat 8 (v.st n).power.supply.code) := by
      intro x w hx
      obtain ⟨h10, h16⟩ := hseatBytes x w
      rw [h10, h16, partHalfBytes_supply, hx, hseated, hcount]
      exact ⟨rfl, rfl, rfl⟩
    refine ⟨by rw [hpower, hseated], by rw [hpower, hrunz], by rw [hpower, hcount], ?_, noticeFollows_noticeKick hnotice,
      fun h => unitsSee_congr hsee ?_, by rw [hpower, hsupply], ?_, hcut, hrest, hstay⟩
    · rw [noticeKick_attention]
      exact attention_of_noticeSame hnotice
    · rw [noticeKick_units, haltFromOutside_units, hunits]
      rw [show v.ctx n = s.ctx n from happ'.ctx]
      refine h.imp id (Or.imp id (Or.imp id fun h hu => h ?_))
      unfold Undisturbed at hu ⊢
      rwa [show v.ctx n = s.ctx n from happ'.ctx] at hu
    · rw [hpower]
      refine reports_noticeKick (hkeeps.reports _ (fun x hx => hbytes x _ hx) (hrep' _ (fun he => ?_) fun w => hbytes _ w rfl))
      refine hrep _ (hbytes _ _ ?_)
      rw [he, hst]

/-! ### SUPPLY (R109, R110) -/

theorem exec_supply {s : State} {n : StationId} {st : InFlight} {on : Bool} (h : Handed s n st (.supply on)) :
    exec (.supply n) s = .next (if on then supplyOn n st s else supplyOff n s) := by
  show execSupply n s = _
  unfold execSupply
  rw [h.1]
  dsimp only
  rw [h.2]

/-- The ramp has begun: the step waits with its deadline, and the part half shows RAMPING. -/
theorem ramping_spec {s : State} {n : StationId} {st : InFlight} (hop : st.op = .supply true)
    (hs : (s.st n).power.supply ≠ .ramping) :
    let t := setSupply n .ramping (markWaiting n st s)
    OnlyStationShared n s t ∧ t.ctx n = waitingCtx s n st 500 ∧ (t.st n).power.supply = .ramping ∧
    (t.st n).power.tripCount = (s.st n).power.tripCount ∧ (t.st n).link = (s.st n).link ∧
    (∀ c, t.chan n c = s.chan n c) ∧ PartHalfReports n (fun bytes => bytes[11]? = some 1) t := by
  have hmark : (markWaiting n st s).st n = { s.st n with ctx := waitingCtx s n st 500 } := by
    unfold markWaiting
    rw [setCtx_st_self, deadlineTicks_eq hop]
    rfl
  have honly : OnlyStation n s (markWaiting n st s) := onlyStation_setCtx _ _ _
  generalize markWaiting n st s = u at hmark honly ⊢
  obtain ⟨v, heq, hv, hst⟩ := setSupply_change (s := u) (n := n) (x := .ramping) (by rw [hmark]; exact hs)
  rw [hmark] at hst
  dsimp only
  rw [heq]
  refine ⟨onlyStationShared_trans (onlyStationShared_of (onlyStationUnits_trans (onlyStationUnits_of honly)
    (onlyStationUnits_of hv))) (queuePartHalf_shared n n v), ?_, ?_, ?_, ?_, fun c => ?_, queuePartHalf_reports_of ?_⟩
  · rw [State.ctx, queuePartHalf_st, hst]
  · rw [queuePartHalf_st, hst]
  · rw [queuePartHalf_st, hst]
  · rw [queuePartHalf_st, hst]
  · unfold State.chan
    rw [queuePartHalf_st, hst]
  · rw [partHalfBytes_supply, hst]
    rfl

/-- A SUPPLY step that its trip ends, seen from before the block took it. -/
theorem cutTowardHalt_supply {s u t : State} {n : StationId} {st : InFlight} (hop : st.op = .supply true)
    (hctx : u.ctx n = waitingCtx s n st 500) (hlink : (u.st n).link = (s.st n).link) (hchan : ∀ c, u.chan n c = s.chan n c)
    (hnow : u.now = s.now) (h : CutTowardHalt n st.taken .supplyTrip .supplyTrip u t) :
    CutTowardHalt n st .supplyTrip .supplyTrip s t := by
  obtain ⟨h1, h2, h3, h4, h5, h6, h7, h8, hoff, ⟨_, hl⟩, _, hc, _⟩ := h
  have hop' : st.taken.op = .supply true := hop
  have hnoq : ∀ q, st.op ≠ .query q := by rw [hop]; exact nofun
  have hnop : ∀ c d w, st.op ≠ .press c d w := by rw [hop]; exact nofun
  have hbytes : ∀ x, outsideBytes x t n st .supplyTrip = [3] ∧ outsideBytes x t n st.taken .supplyTrip = [3] := fun x => by
    unfold outsideBytes
    rw [hop, hop']
    exact ⟨rfl, rfl⟩
  have hend : endBytes u n st.taken .supplyTrip [3] = endBytes s n st .supplyTrip [3] := by
    unfold endBytes
    rw [hctx, hnow]
    rfl
  unfold OutsideOutcomeOffered at hoff
  rw [(hbytes u).2, hend] at hoff
  refine ⟨h1, h2, h3, by rw [h4, hctx]; rfl, by rw [h5, hctx]; rfl, by rw [h6, hctx]; rfl, h7, h8, ?_,
    ⟨fun q hq => absurd hq (hnoq q), fun _ => (hl (Or.inl hnoq)).trans hlink⟩, fun c d w hp => absurd hp (hnop c d w),
    fun _ c => (hc (Or.inl hnop) c).trans (hchan c), ?_, ?_, ?_⟩
  · unfold OutsideOutcomeOffered
    rw [(hbytes s).1]
    exact hoff
  all_goals
    rw [hop]
    exact nofun

/-- Settles O48: SUPPLY ON and OFF by the seat, the supply and TRIP. -/
theorem supplyStepRampsEndsOrTrips : Obligations.SupplyStepRampsEndsOrTrips := by
  intro s n st
  refine ⟨fun h => ?_, fun h => ⟨_, exec_supply h, ?_⟩⟩
  · obtain ⟨hstate, hs, _, hop⟩ := step_of_handed h
    have hexec := exec_supply h
    have hramp : (s.st n).power.seated = true → (s.st n).power.supply = .off ∨ (s.st n).power.supply = .tripped →
        supplyOn n st s = startRamp n st s := by
      intro hseat hsup
      unfold supplyOn
      dsimp only
      rw [if_pos hseat]
      rcases hsup with e | e <;> rw [e]
    refine ⟨fun hseat => ⟨_, hexec, ?_⟩, fun hseat hon => ⟨_, hexec, ?_⟩, fun hseat hsup htrip => ⟨_, hexec, ?_⟩,
      fun hseat hsup htrip hu => ⟨_, hexec, ?_⟩⟩
    · have heq : supplyOn n st s = endStep n .notSeated [BitVec.ofNat 8 (s.st n).power.supply.code] s :=
        if_neg (by rw [hseat]; exact Bool.false_ne_true)
      rw [if_pos rfl, heq]
      exact endStep_alone hs _ _
    · have heq : supplyOn n st s = endStep n .ok [2] s := by
        unfold supplyOn
        dsimp only
        rw [if_pos hseat, hon]
        rfl
      rw [if_pos rfl, heq]
      exact endStep_alone hs _ _
    · have hne : (s.st n).power.supply ≠ .ramping := by rcases hsup with e | e <;> rw [e] <;> nofun
      obtain ⟨honly, hctx, hsupply, hcount, _, _, hrep⟩ := ramping_spec (st := st) hop hne
      have heq : startRamp n st s = setSupply n .ramping (markWaiting n st s) := if_neg (by rw [htrip]; exact Bool.false_ne_true)
      rw [if_pos rfl, hramp hseat hsup, heq]
      refine ⟨honly, hctx, hsupply, ?_, hcount, hrep⟩
      unfold State.supplyEnable
      rw [hsupply]
    · have hne : (s.st n).power.supply ≠ .ramping := by rcases hsup with e | e <;> rw [e] <;> nofun
      obtain ⟨⟨hf, _⟩, hctx, _, hcount, hlink, hchan, _⟩ := ramping_spec (st := st) hop hne
      have heq : startRamp n st s = noticeKick (tripSupply n (setSupply n .ramping (markWaiting n st s))) := if_pos htrip
      rw [if_pos rfl, hramp hseat hsup, heq, tripSupply_eq]
      generalize setSupply n .ramping (markWaiting n st s) = u at hf hctx hcount hlink hchan ⊢
      have hnow : u.now = s.now := by
        rw [State.now, hf]
        rfl
      have happ := approach_tripped (Approach.refl n u)
      obtain ⟨hsupply, htripped, _⟩ := tripped_spec n u
      have hr : ((tripped n u).st n).power.supply ≠ .ramping := by rw [hsupply]; nofun
      have hpower : ((noticeKick (haltFromOutside n .supplyTrip .supplyTrip (tripped n u))).st n).power =
          ((tripped n u).st n).power := by
        rw [noticeKick_st]
        exact (haltKeeps_haltFromOutside happ hr .supplyTrip .supplyTrip).power
      have hund : Undisturbed u n := by
        unfold Undisturbed
        rw [hctx]
        exact hu
      have hin : InStep u n st.taken := by
        unfold InStep
        rw [hctx]
        exact ⟨rfl, Or.inl hstate⟩
      have hcut := (haltFromOutside_halts happ hr .supplyTrip .supplyTrip).1 hund _ hin
      exact ⟨cutTowardHalt_supply hop hctx hlink hchan hnow hcut, by rw [hpower, hsupply],
        supplyEnable_of (by rw [hpower, hsupply]) (Or.inr rfl), by rw [hpower, htripped, hcount]⟩
  · obtain ⟨_, hs, _, _⟩ := step_of_handed h
    rw [if_neg Bool.false_ne_true]
    unfold supplyOff
    by_cases hoff : (s.st n).power.supply = .off
    · have heq : setSupply n .off s = s := if_pos hoff
      rw [heq]
      obtain ⟨hends, honly, hown⟩ := endStep_alone hs .ok [BitVec.ofNat 8 SupplyState.off.code]
      have hsup : ((endStep n .ok [BitVec.ofNat 8 SupplyState.off.code] s).st n).power.supply = .off := by
        rw [hown]
        exact hoff
      exact ⟨endStep_shared _ _, stepEndsAmid_of hs rfl rfl rfl _ _, hsup, supplyEnable_of hsup (Or.inl rfl),
        fun hne => absurd hoff hne⟩
    · obtain ⟨h1, h2, h3, h4, _⟩ := endStep_setSupply hs hoff .ok [BitVec.ofNat 8 SupplyState.off.code]
      exact ⟨h1, h2, h3, supplyEnable_of h3 (Or.inl rfl), fun _ => h4⟩

end Sys2Proof.Proofs
end

section
/-! PROOFS. What the acts of the other stations leave of a station that no round and no grant can reach: in a part that is not
ACTIVE, or with no step in flight and in no arrived set (R43, R137, R150). -/

namespace Sys2Proof.Proofs

open Sys2Proof.Machine Sys2Proof.Laws

/-! ### A cohort seen from one of its stations -/

/-- The cohort has no ready round of no line. -/
def Cohort.Pends (x : Cohort) : Prop := x.binding ≠ none ∨ x.ready = false

/-- The station stands in no arrival of the cohort. -/
def Cohort.Absent (n : StationId) (x : Cohort) : Prop := ∀ a ∈ x.arrived, a.station ≠ n

/-- What the acts of other stations leave of a cohort for the station: its place in the live set, its absence from the arrived
set, and a round that is not ready while it is live and absent (R149). -/
structure CohortAside (n : StationId) (x y : Cohort) : Prop where
  live : n ∈ y.live ↔ n ∈ x.live
  absent : Cohort.Absent n x → Cohort.Absent n y
  pends : Cohort.Pends x → Cohort.Pends y
  unready : n ∈ x.live → Cohort.Absent n x → x.ready = false → y.ready = false

namespace CohortAside

variable {n : StationId} {x y z : Cohort}

theorem refl (n : StationId) (x : Cohort) : CohortAside n x x := ⟨Iff.rfl, id, id, fun _ _ => id⟩

theorem trans (h : CohortAside n x y) (k : CohortAside n y z) : CohortAside n x z where
  live := k.live.trans h.live
  absent := k.absent ∘ h.absent
  pends := k.pends ∘ h.pends
  unready hl ha hr := k.unready (h.live.mpr hl) (h.absent ha) (h.unready hl ha hr)

theorem dropArrived (x : Cohort) (n m : StationId) : CohortAside n x (x.dropArrived m) :=
  ⟨Iff.rfl, fun h a ha => h a (List.mem_filter.mp ha).1, id, fun _ _ => id⟩

theorem dropLive {m : StationId} (x : Cohort) (h : m ≠ n) : CohortAside n x (x.dropLive m) where
  live := by
    show n ∈ x.live.filter (· != m) ↔ n ∈ x.live
    simp [h.symm]
  absent := (dropArrived x n m).absent
  pends := id
  unready _ _ := id

theorem addLive {m : StationId} (x : Cohort) (h : m ≠ n) :
    CohortAside n x { x with live := (List.finRange 24).filter fun j => j == m || x.live.contains j } where
  live := by simp [h.symm]
  absent := id
  pends := id
  unready _ _ := id

theorem released (x : Cohort) (n : StationId) : CohortAside n x x.released :=
  ⟨Iff.rfl, fun _ => nofun, fun _ => Or.inr rfl, fun _ _ _ => rfl⟩

theorem settled (x : Cohort) (n : StationId) : CohortAside n x (Cohort.settled x) := by
  obtain ⟨harr, hlive, _⟩ := settled_sets x
  refine ⟨by rw [hlive], fun h => by unfold Cohort.Absent; rw [harr]; exact h, fun h => ?_, fun hl ha hr => ?_⟩
  · unfold Cohort.settled
    split
    · exact Or.inr rfl
    · split
      · exact h
      · next hb => exact Or.inl hb
  · unfold Cohort.settled
    split
    · rfl
    · split
      · exact hr
      · exact complete_false_of hl ha

end CohortAside

/-- The examination of a round that is not released. -/
theorem settleCohort_unreleased' {k : CohortId} {s : State}
    (h : (s.cohort k).arrived = [] ∨ (s.cohort k).binding ≠ none ∨ (s.cohort k).complete = false ∨ s.active = false) :
    settleCohort k s = judgeLine .b (judgeLine .a (s.setCohort k (Cohort.settled (s.cohort k)))) := by
  by_cases hu : (s.cohort k).arrived = [] ∨ (s.cohort k).binding ≠ none ∨ (s.cohort k).complete = false
  · exact settleCohort_unreleased hu
  · simp only [not_or, not_not] at hu
    obtain ⟨hne, hb, hc⟩ := hu
    have hinactive : s.active = false := by
      rcases h with h | h | h | h
      · exact absurd h hne
      · exact absurd hb h
      · exact absurd h hc
      · exact h
    have hsame : Cohort.settled (s.cohort k) = s.cohort k := (if_neg hne).trans (if_pos hb)
    rw [hsame, setCohort_self]
    unfold settleCohort
    dsimp only
    rw [if_neg hne, hb]
    dsimp only
    rw [if_neg (by rw [hinactive]; exact fun h => nomatch h.2)]

/-- Out of ACTIVE the arbiter grants nothing. -/
theorem arbitrate_inactive {s : State} (h : s.active = false) : arbitrate s = s := by
  unfold arbitrate
  have hunit : ∀ u, arbitrateUnit s u = s := fun u => if_neg (by rw [h]; exact fun k => nomatch k.1)
  exact foldl_keeps_prop (P := fun t => t = s) (f := arbitrateUnit) (fun {t} u ht => by rw [ht]; exact hunit u) _ rfl

/-! ### The station itself -/

/-- Nothing reserves a unit for the station: it waits for none, and none is bound to it. -/
def Unbound (n : StationId) (s : State) : Prop :=
  (∀ e ∈ s.waitList, e.station ≠ n) ∧ ∀ u slot, (s.unit u).binding ≠ some (n, slot)

/-- What the acts of other stations leave of the station and of the part. -/
structure Aside (n : StationId) (s t : State) : Prop where
  st : t.st n = s.st n
  fixed : fixed t = fixed s
  unbound : Unbound n s → Unbound n t
  cohort : ∀ k, CohortAside n (s.cohort k) (t.cohort k)

/-- No grant and no release reaches the station. -/
def OutOfReach (n : StationId) (s : State) : Prop := s.active = false ∨ ((s.ctx n).step = none ∧ NotArrived s n)

namespace Aside

variable {n : StationId} {s t u : State}

theorem refl (n : StationId) (s : State) : Aside n s s := ⟨rfl, rfl, id, fun _ => .refl n _⟩

theorem trans (h : Aside n s t) (k : Aside n t u) : Aside n s u :=
  ⟨k.st.trans h.st, k.fixed.trans h.fixed, k.unbound ∘ h.unbound, fun c => (h.cohort c).trans (k.cohort c)⟩

theorem ctx (h : Aside n s t) : t.ctx n = s.ctx n := congrArg Station.ctx h.st

theorem ctl (h : Aside n s t) : t.ctl = s.ctl := ctl_of_fixed h.fixed

theorem now (h : Aside n s t) : t.now = s.now := by
  unfold State.now
  rw [time_of_fixed h.fixed]

theorem outOfReach (h : Aside n s t) (k : OutOfReach n s) : OutOfReach n t := by
  unfold OutOfReach State.active at k ⊢
  rw [h.ctl, h.ctx]
  exact k.imp id fun ⟨hstep, hna⟩ => ⟨hstep, fun c => (h.cohort c).absent (hna c)⟩

/-- A change of other stations, of the engine, the notices and the lines, or of the edges that units have to take. -/
theorem of_kept (hst : u.st n = t.st n) (hf : Laws.fixed u = Laws.fixed t)
    (hu : ∀ v, (u.unit v).binding = (t.unit v).binding) (hw : u.waitList = t.waitList) (hc : u.cohorts = t.cohorts) :
    Aside n t u where
  st := hst
  fixed := hf
  unbound h := ⟨by rw [hw]; exact h.1, fun v slot => by rw [hu]; exact h.2 v slot⟩
  cohort k := by
    have hk : u.cohort k = t.cohort k := by
      unfold State.cohort
      rw [hc]
    rw [hk]
    exact .refl n _

theorem setCohort {k : CohortId} {x : Cohort} (h : CohortAside n (t.cohort k) x) : Aside n t (t.setCohort k x) where
  st := rfl
  fixed := rfl
  unbound := id
  cohort j := by
    rw [cohort_setCohort]
    split
    · next hj =>
      rw [hj]
      exact h
    · exact .refl n _

/-- The judging of the lines. -/
theorem judged (t : State) : Aside n t (judgeLine .b (judgeLine .a t)) :=
  .of_kept (st_congr (by simp) _) (by simp) (fun v => by unfold State.unit; simp) (by simp) (by simp)

/-- The examination of a round that does not reach the station. -/
theorem settleCohort (h : OutOfReach n t) (k : CohortId) : Aside n t (settleCohort k t) := by
  by_cases hrel : (t.cohort k).arrived = [] ∨ (t.cohort k).binding ≠ none ∨ (t.cohort k).complete = false ∨ t.active = false
  · rw [settleCohort_unreleased' hrel]
    exact (setCohort (.settled _ n)).trans (judged _)
  · simp only [not_or, Bool.not_eq_false, not_not] at hrel
    obtain ⟨hne, hb, hc, ha⟩ := hrel
    have hna : NotArrived t n := (h.resolve_left (by rw [ha]; nofun)).2
    obtain ⟨hst, hbind, hwait⟩ := releaseRound_untouched k t
    have hround : Aside n t (releaseRound k t) := by
      refine ⟨hst n (hna k), releaseRound_fixed k t,
        fun ⟨hw, hu⟩ => ⟨by rw [hwait]; exact hw, fun v slot => by rw [hbind]; exact hu v slot⟩, fun j => ?_⟩
      by_cases hj : j = k
      · rw [hj, releaseRound_cohort]
        exact .released _ n
      · rw [(releaseRound_frame k t).2 j hj]
        exact .refl n _
    rw [settleCohort_released hne hb hc (by simpa [State.active] using ha)]
    exact hround.trans (judged _)

theorem ownSets {k : CohortId} {x : Cohort} (h : OutOfReach n t) (hx : CohortAside n (t.cohort k) x) :
    Aside n t (Machine.settleCohort k (t.setCohort k x)) :=
  have hset : Aside n t (t.setCohort k x) := setCohort hx
  hset.trans (settleCohort (hset.outOfReach h) k)

theorem arbitrate (h : OutOfReach n t) : Aside n t (arbitrate t) := by
  have hcohorts : ∀ k, CohortAside n (t.cohort k) ((Machine.arbitrate t).cohort k) := fun k => by
    have hk : (Machine.arbitrate t).cohort k = t.cohort k := by
      unfold State.cohort
      rw [arbitrate_cohorts]
    rw [hk]
    exact .refl n _
  rcases h with h | ⟨hstep, _⟩
  · rw [arbitrate_inactive h]
    exact .refl n t
  · refine ⟨(arbitrate_frame hstep).1, arbitrate_fixed t, fun ⟨hw, hu⟩ => ?_, hcohorts⟩
    obtain ⟨_, hw', hu'⟩ := arbitrate_untouched hw hu
    exact ⟨hw', hu'⟩

end Aside

/-- What the acts of other stations leave of a station out of their reach. -/
theorem aside_kept {n : StationId} {s : State} (h : OutOfReach n s) : KeptByHalts (· ≠ n) (Aside n s) where
  setSt k hm := k.trans (.of_kept ((onlyStation_setSt _ _ _).2 n (Ne.symm hm)) rfl (fun _ => rfl) rfl rfl)
  edge k _ := k.trans (.of_kept rfl rfl
    (fun v => onlyInbox_binding (onlyInbox_of_unitsSee (emitEdge_unitsSee _ _ _ _) v)) rfl rfl)
  offer k _ := k.trans (.of_kept (st_congr (by simp) _) (by simp) (fun v => by unfold State.unit; simp) (by simp) (by simp))
  partHalf k _ := k.trans (.of_kept (st_congr (by simp) _) (by simp) (fun v => by unfold State.unit; simp) (by simp) (by simp))
  withdraw k _ := k.trans (.of_kept rfl rfl (fun _ => rfl) rfl rfl)
  abandonUnits {t m} k _ := by
    refine k.trans ⟨rfl, rfl, fun ⟨hw, hu⟩ => ⟨fun e he => hw e (List.mem_filter.mp he).1, fun v slot => ?_⟩, fun _ => .refl n _⟩
    rw [abandonUnits_unit]
    split
    · exact nofun
    · exact hu v slot
  abandonCollect {t m slot} k _ := by
    unfold abandonCollect
    split
    · next u _ =>
      refine k.trans ⟨rfl, rfl, fun ⟨hw, hu⟩ => ⟨hw, fun v slot => ?_⟩, fun _ => .refl n _⟩
      unfold freeOneUnit
      rw [unit_setUnit]
      split
      · exact nofun
      · exact hu v slot
    · exact k
  leaveList k _ := k.trans ⟨rfl, rfl, fun ⟨hw, hu⟩ => ⟨fun e he => hw e (List.mem_filter.mp he).1, hu⟩, fun _ => .refl n _⟩
  arbitrate k := k.trans (.arbitrate (k.outOfReach h))
  joinLive {t m} k hm := by
    unfold joinLive
    split
    · exact k
    · exact k.trans (.ownSets (k.outOfReach h) (.addLive _ hm))
  leaveLive {t m} k hm := by
    unfold leaveLive
    split
    · exact k
    · split
      · exact k.trans (.ownSets (k.outOfReach h) (.dropLive _ hm))
      · exact k
  leaveArrived {t m} k _ := by
    unfold leaveArrived
    split
    · exact k
    · split
      · exact k.trans (.ownSets (k.outOfReach h) (.dropArrived _ n m))
      · exact k
  attention k _ := k.trans (.of_kept (st_congr (by simp) _) (by simp) (fun v => by unfold State.unit; simp) (by simp) (by simp))

/-! ### What a station has queued -/

/-- The part-half write of a station that stands queued, waits or is held is kept by the acts of the others. -/
theorem partHalfQueued_kept (n : StationId) (P : List Byte → Prop) : KeptByChangeOf (· ≠ n) (PartHalfQueued n P) where
  contents h _ _ _ _ := h
  line {_ l _} h _ := by cases l <;> exact h
  offer h _ := partHalfQueued_offer _ h
  partHalf h _ hm := partHalfQueued_queuePartHalf hm h
  withdraw h m _ := by
    rcases h with h | h | ⟨r, hr, hk, hp⟩
    · exact .inl h
    · exact .inr (.inl h)
    · exact .inr (.inr ⟨r, List.mem_filter.mpr ⟨hr, by rw [hk]; rfl⟩, hk, hp⟩)
  attention h _ _ := partHalfQueued_congr (setAttention_engine _ _) h

/-- What every part does in turn, seen from one of them. -/
theorem foldl_keeps_others {P : State → Prop} {f : State → StationId → State} {n : StationId}
    (hf : ∀ {t : State} {m : StationId}, m ≠ n → P t → P (f t m)) {l : List StationId} (hl : n ∉ l) {s : State} (h : P s) :
    P (l.foldl f s) := by
  induction l generalizing s with
  | nil => exact h
  | cons m l ih =>
    exact ih (fun hm => hl (List.mem_cons_of_mem _ hm)) (hf (fun he => hl (he ▸ List.mem_cons_self)) h)

/-- Every station in turn: the others before station `n`, the station, the others after it, each of them once. -/
theorem foldl_finRange_turn (f : State → StationId → State) (n : StationId) (s : State) :
    ∃ before after : List StationId, n ∉ before ∧ n ∉ after ∧ (before ++ after).Nodup ∧
      (List.finRange 24).foldl f s = after.foldl f (f (before.foldl f s) n) := by
  obtain ⟨before, after, hl⟩ := List.append_of_mem (List.mem_finRange n)
  have hnodup := List.nodup_finRange 24
  rw [hl] at hnodup ⊢
  obtain ⟨hn, hrest⟩ := List.nodup_cons.mp (List.nodup_middle.mp hnodup)
  obtain ⟨hb, ha⟩ := not_or.mp (fun h => hn (List.mem_append.mpr h))
  exact ⟨before, after, hb, ha, hrest, by rw [List.foldl_append, List.foldl_cons]⟩

end Sys2Proof.Proofs
end

section
/-! PROOFS. The quiesce: the drain of the engine, the lines OFF, and every station in turn (R13, R43, R162, R173, R190,
R191). -/

namespace Sys2Proof.Proofs

open Sys2Proof.Machine Sys2Proof.Laws

/-! ### The drain (R173) -/

/-- The engine drains: QUIESCING, no unsent read in the queue and none that waits for room, and whether the fetch read of the
station is still in flight. -/
structure Draining (n : StationId) (flying : Bool) (t : State) : Prop where
  state : t.ctl.state = .quiescing
  queue : ∀ e ∈ t.engine.queue, e.req.kind.isRead = true → e.sent.isSome = true
  room : ∀ r ∈ t.engine.room, r.kind.isRead = false
  fetch : t.engine.inQueue (.fetch n) = flying

theorem draining_congr {n : StationId} {b : Bool} {s t : State} (h : Draining n b s) (hc : t.ctl = s.ctl)
    (he : t.engine = s.engine) : Draining n b t := by
  obtain ⟨h1, h2, h3, h4⟩ := h
  exact ⟨by rw [hc, h1], by rw [he]; exact h2, by rw [he]; exact h3, by rw [he, h4]⟩

/-- A write that enters the queue or waits for room. -/
theorem draining_offer {n : StationId} {b : Bool} {s : State} (h : Draining n b s) (r : Request) : Draining n b (offer r s) := by
  have hctl := offer_ctl r s
  have heng := offer_engine r s
  unfold engineOffered at heng
  split at heng
  · next hadm =>
    have hread : r.kind.isRead = false := by
      rw [h.state] at hadm
      simpa [admits] using hadm
    have hfetch : (r.kind == .fetch n) = false := by
      refine beq_eq_false_iff_ne.mpr fun e => ?_
      rw [e] at hread
      cases hread
    split at heng
    · refine ⟨by rw [hctl, h.state], fun e he hr => ?_, by rw [heng]; exact h.room, ?_⟩
      · rw [heng] at he
        rcases List.mem_append.mp he with he | he
        · exact h.queue e he hr
        · rw [List.mem_singleton.mp he] at hr
          rw [hread] at hr
          cases hr
      · rw [heng, ← h.fetch]
        simp [Engine.inQueue, hfetch]
    · refine ⟨by rw [hctl, h.state], by rw [heng]; exact h.queue, fun q hq => ?_, by rw [heng]; exact h.fetch⟩
      rw [heng] at hq
      rcases List.mem_append.mp hq with hq | hq
      · exact h.room q hq
      · rw [List.mem_singleton.mp hq]
        exact hread
  · exact draining_congr h hctl heng

theorem draining_queuePartHalf {n m : StationId} {b : Bool} {s : State} (h : Draining n b s) : Draining n b (queuePartHalf m s) := by
  have hfetch : (queuePartHalf m s).engine.inQueue (.fetch n) = b := (queuePartHalf_inQueue_fetch n m s).trans h.fetch
  have hctl := queuePartHalf_ctl m s
  rw [queuePartHalf_on (Or.inr h.state)] at hfetch hctl ⊢
  revert hfetch
  split
  · intro hfetch
    refine ⟨h.state, h.queue, fun r hr => ?_, hfetch⟩
    obtain ⟨q, hq, rfl⟩ := List.mem_map.mp hr
    rw [replaceBytes_kind]
    exact h.room q hq
  · split
    · split
      · exact fun hfetch => ⟨h.state, h.queue, h.room, hfetch⟩
      · intro hfetch
        refine ⟨h.state, fun e he hr => ?_, h.room, hfetch⟩
        obtain ⟨x, hx, rfl⟩ := List.mem_map.mp he
        exact h.queue x hx (by rwa [replaceBytes_kind] at hr)
    · exact fun _ => draining_offer h _

/-- The drain goes on whatever the stations do. -/
theorem draining_kept (n : StationId) (b : Bool) : KeptByWork (Draining n b) where
  contents h _ _ _ _ := draining_congr h rfl rfl
  line {_ l _} h _ := draining_congr h (by cases l <;> rfl) (by cases l <;> rfl)
  offer h _ := draining_offer h _
  partHalf h _ _ := draining_queuePartHalf h
  withdraw h _ _ := ⟨h.state, h.queue, fun r hr => h.room r (List.mem_filter.mp hr).1, h.fetch⟩
  attention h _ _ := draining_congr h (by simp) (by simp)
  kick {s} h := by
    rcases noticeKick_engine s with he | ⟨r, _, he⟩
    · exact draining_congr h (noticeKick_ctl s) he
    · exact draining_congr (draining_offer h r) (by rw [noticeKick_ctl, offer_ctl]) he

theorem draining_refill {n : StationId} {b : Bool} {s : State} (h : Draining n b s) : Draining n b (refill s) := by
  have hctl : (refill s).ctl = s.ctl := by simp
  rcases refill_engine s with he | ⟨r, rest, hr, _, he⟩
  · exact draining_congr h hctl he
  · have hread : r.kind.isRead = false := h.room r (by rw [hr]; exact List.mem_cons_self)
    have hfetch : (r.kind == .fetch n) = false := by
      refine beq_eq_false_iff_ne.mpr fun e => ?_
      rw [e] at hread
      cases hread
    refine ⟨by rw [hctl, h.state], fun e hm hk => ?_, fun q hq => ?_, ?_⟩
    · rw [he] at hm
      rcases List.mem_append.mp hm with hm | hm
      · exact h.queue e hm hk
      · rw [List.mem_singleton.mp hm] at hk
        rw [hread] at hk
        cases hk
    · rw [he] at hq
      exact h.room q (by rw [hr]; exact List.mem_cons_of_mem _ hq)
    · rw [he, ← h.fetch]
      simp [Engine.inQueue, hfetch]

/-- The engine once its unsent reads have been dropped and its waiting ones withdrawn. -/
theorem draining_filter (n : StationId) {s : State} (h : s.ctl.state = .quiescing) :
    Draining n (s.engine.queue.any fun e => e.req.kind == .fetch n && e.sent.isSome) { s with engine := { s.engine with
      queue := s.engine.queue.filter Entry.drains, room := s.engine.room.filter fun r => !r.kind.isRead } } where
  state := h
  queue e he hr := by
    have hd := (List.mem_filter.mp he).2
    unfold Entry.drains at hd
    rw [hr] at hd
    simpa using hd
  room r hr := by simpa using (List.mem_filter.mp hr).2
  fetch := by
    unfold Engine.inQueue
    dsimp only
    rw [List.any_filter]
    refine List.any_congr rfl fun e => ?_
    unfold Entry.drains
    by_cases hk : e.req.kind = .fetch n
    · rw [hk]
      simp [ReqKind.isRead]
    · rw [beq_eq_false_iff_ne.mpr hk, Bool.and_false, Bool.false_and]

/-- What the drain and the lines going OFF do before the stations are quiesced. -/
theorem startDrain_spec (n : StationId) {s : State} (h : s.ctl.state = .quiescing) :
    Draining n (s.engine.queue.any fun e => e.req.kind == .fetch n && e.sent.isSome) (startDrain s) ∧
    (startDrain s).sweep.timer = none ∧ (startDrain s).sweep.pending = false := by
  have hrefill := foldl_keeps_prop (P := Draining n (s.engine.queue.any fun e => e.req.kind == .fetch n && e.sent.isSome))
    (f := fun t (_ : Nat) => refill t) (fun _ ht => draining_refill ht) (List.range Config.queueRoom) (draining_filter n h)
  exact ⟨draining_congr hrefill rfl rfl, rfl, rfl⟩

end Sys2Proof.Proofs
end

section
/-! PROOFS. A station that the quiesce reaches: what it lets go of, and its way by the phase it stands in (R13, R37 to R43,
R103, R142). -/

namespace Sys2Proof.Proofs

open Sys2Proof.Machine Sys2Proof.Laws

/-! ### What the station lets go of (R13, R103, R142, R145) -/

/-- The station's supply is OFF, its channels are lifted and it stands in no set of its cohort, with Part Control and the
clock as before. -/
structure LetGo (n : StationId) (s t : State) : Prop where
  supply : (t.st n).power.supply = .off
  chan : ∀ c, t.chan n c = Channel.initial
  out : OutOfCohort n t
  fixed : fixed t = fixed s

namespace LetGo

variable {n : StationId} {s t u : State}

/-- A later change that leaves the supply, the cohort and every lifted channel. -/
theorem after (h : LetGo n s t) (hp : (u.st n).power = (t.st n).power)
    (hc : ∀ c, u.chan n c = t.chan n c ∨ u.chan n c = Channel.initial) (hk : (u.ctx n).cohort = (t.ctx n).cohort)
    (hs : u.cohorts = t.cohorts) (hf : Laws.fixed u = Laws.fixed t) : LetGo n s u where
  supply := by rw [hp, h.supply]
  chan c := (hc c).elim (fun e => e.trans (h.chan c)) id
  out k hkk := by
    unfold State.cohort
    rw [hs]
    exact h.out k (by rw [← hk]; exact hkk)
  fixed := hf.trans h.fixed

theorem now (h : LetGo n s t) : t.now = s.now := by
  unfold State.now
  rw [time_of_fixed h.fixed]

theorem ctl (h : LetGo n s t) : t.ctl = s.ctl := ctl_of_fixed h.fixed

theorem arriveIdle (h : LetGo n s t) : LetGo n s (arriveIdle n t) := by
  have hst : (Machine.arriveIdle n t).st n = { t.st n with ctx := (Machine.arriveIdle n t).ctx n } := by
    rw [arriveIdle_ctx]
    unfold Machine.arriveIdle
    rw [queuePartHalf_st, setCtx_st_self]
  refine h.after (by rw [hst]) (fun c => Or.inl ?_) (by rw [arriveIdle_ctx]) (by unfold Machine.arriveIdle; simp) (by simp)
  unfold State.chan
  rw [hst]

/-- The units and the wait are left last. -/
theorem switchedOff (h : LetGo n s t) : SwitchedOff n (abandonUnits n t) ∧ OutOfCohort n (abandonUnits n t) := by
  refine ⟨⟨h.supply, h.chan, fun u slot => ?_, fun w hw => ?_⟩, h.out⟩
  · rw [abandonUnits_unit]
    split
    · exact nofun
    · next hb => exact fun e => hb (by rw [e]; rfl)
  · simpa using (List.mem_filter.mp hw).2

end LetGo

/-- A station that has left its cohort stands in neither set, whatever the release that its departure brings does. -/
theorem leaveLive_out (n : StationId) (s : State) : OutOfCohort n (leaveLive n s) := by
  intro k hk
  have hst := (leaveLive_untouched n s).1
  rw [State.ctx, hst] at hk
  have hk' : (s.ctx n).cohort = some k := hk
  unfold leaveLive
  rw [hk']
  dsimp only
  split
  · obtain ⟨hlive, harr⟩ := settleCohort_sets k (s.setCohort k ((s.cohort k).dropLive n))
    rw [cohort_setCohort, if_pos rfl] at hlive harr
    refine ⟨by rw [hlive]; simp [Cohort.dropLive], fun a ha => ?_⟩
    simpa using (List.mem_filter.mp (harr a ha)).2
  · next hn =>
    simp only [Cohort.holds, Bool.or_eq_true, List.any_eq_true, beq_iff_eq, not_or, not_exists, not_and,
      List.contains_iff_mem] at hn
    exact hn

/-- The station once a disable has taken its supply, its place in its cohort and its channels. -/
def parted (n : StationId) (s : State) : State :=
  liftAll n (leaveLive n (setSupply n .off (s.setCtx n { s.ctx n with disabling := true })))

theorem parted_spec (n : StationId) (s : State) :
    LetGo n s (parted n s) ∧ (parted n s).ctx n = { s.ctx n with disabling := true } ∧
    ((parted n s).st n).link = (s.st n).link := by
  have happ := (Approach.refl n (s.setCtx n { s.ctx n with disabling := true })).setSupply .off
  have hsupply := (setSupply_spec n .off (s.setCtx n { s.ctx n with disabling := true })).1
  have hlink : ((s.setCtx n { s.ctx n with disabling := true }).st n).link = (s.st n).link := by rw [setCtx_st_self]
  have hfix : fixed (setSupply n .off (s.setCtx n { s.ctx n with disabling := true })) = fixed s :=
    (setSupply_fixed _ _ _).trans rfl
  have hctx : (setSupply n .off (s.setCtx n { s.ctx n with disabling := true })).ctx n = { s.ctx n with disabling := true } :=
    happ.ctx.trans (by rw [setCtx_ctx_self])
  have hl := happ.link.trans hlink
  unfold parted
  generalize setSupply n .off (s.setCtx n { s.ctx n with disabling := true }) = p at hsupply hfix hctx hl ⊢
  have hst := (leaveLive_untouched n p).1
  have hout := leaveLive_out n p
  have hfixl := leaveLive_fixed n p
  generalize leaveLive n p = q at hst hout hfixl ⊢
  obtain ⟨hlift, hchan⟩ := liftAll_spec n q
  have hcohorts := liftAll_cohorts n q
  have hlctx := liftAll_ctx n n q
  have hstl := hlift.st
  have hfixq := liftAll_fixed n q
  generalize liftAll n q = v at hlift hchan hcohorts hlctx hstl hfixq ⊢
  refine ⟨⟨?_, hchan, fun k hk => ?_, hfixq.trans (hfixl.trans hfix)⟩, ?_, ?_⟩
  · rw [hstl, hst]
    exact hsupply
  · unfold State.cohort
    rw [hcohorts]
    exact hout k (by rw [← hlctx]; exact hk)
  · rw [hlctx, State.ctx, hst]
    exact hctx
  · rw [hstl, hst]
    exact hl

/-- What a quiesce does with a station that is neither IDLE nor on its way there. -/
theorem takeDisable_eq {n : StationId} {s : State} (ha : s.active = false) (hi : (s.ctx n).state ≠ .idle)
    (hd : (s.ctx n).disabling = false) : takeDisable n s = abandonUnits n (disablePhase n (parted n s)) := by
  have hphase : fixed (disablePhase n (parted n s)) = fixed s := by
    refine (?_ : fixed (disablePhase n (parted n s)) = fixed (parted n s)).trans (parted_spec n s).1.fixed
    unfold disablePhase
    split
    case h_1 | h_2 => rfl
    case h_3 | h_4 => exact arriveIdle_fixed ..
    case h_5 => exact abortFetch_fixed ..
    all_goals
      unfold cutFromOutside
      split
      · rfl
      · rw [endStep_fixed, cutBlock_fixed]
  have heq : takeDisable n s = arbitrate (abandonUnits n (disablePhase n (parted n s))) := by
    unfold takeDisable parted
    rw [if_neg (not_or.mpr ⟨hi, by rw [hd]; exact Bool.false_ne_true⟩)]
  rw [heq]
  refine arbitrate_inactive ?_
  unfold State.active at ha ⊢
  rw [abandonUnits_ctl, ctl_of_fixed hphase]
  exact ha

/-! ### A fetch phase that ends toward IDLE (R39) -/

theorem fetchLeft_congr {n : StationId} {s t : State} (hq : t.engine.inQueue (.fetch n) = s.engine.inQueue (.fetch n))
    (hc : t.ctl = s.ctl) (hb : (t.ctx n).backlog = (s.ctx n).backlog) : t.fetchLeft n = s.fetchLeft n := by
  unfold State.fetchLeft State.active
  rw [hq, hc, hb]

theorem abortFetch_left {n : StationId} {s : State} (h : s.fetchLeft n = true) : abortFetch n s = s := if_pos h

/-- A fetch phase whose read is not left to end ends in IDLE. -/
theorem abortFetch_idle {n : StationId} {s : State} (h : s.fetchLeft n = false) (hd : (s.ctx n).disabling = true) :
    ∃ v, abortFetch n s = arriveIdle n v ∧ v.st n = { s.st n with ctx := v.ctx n } ∧
      v.ctx n = { s.ctx n with backlog := none, taken := (s.ctx n).taken - 1 } ∧ v.cohorts = s.cohorts ∧
      fixed v = fixed s := by
  unfold abortFetch
  rw [if_neg (by rw [h]; exact Bool.false_ne_true)]
  generalize hw : ({ s.setCtx n { s.ctx n with backlog := none } with
    engine := { s.engine with room := s.engine.room.filter fun q => q.kind != .fetch n } } : State) = w
  have hst : w.st n = { s.st n with ctx := { s.ctx n with backlog := none } } := by
    rw [← hw]
    exact setCtx_st_self s n _
  have hctx : w.ctx n = { s.ctx n with backlog := none } := congrArg Station.ctx hst
  have hcohorts : w.cohorts = s.cohorts := by rw [← hw]; rfl
  have hfix : fixed w = fixed s := by rw [← hw]; rfl
  refine ⟨w.setCtx n { w.ctx n with taken := (w.ctx n).taken - 1 }, ?_, ?_, ?_, hcohorts, hfix⟩
  · unfold fetchFailed
    dsimp only
    rw [if_pos (by rw [hctx]; exact hd)]
  · rw [setCtx_ctx_self, setCtx_st_self, hst]
  · rw [setCtx_ctx_self, hctx]

/-! ### A step cut toward IDLE (R40) -/

theorem cutBlock_cohorts {n : StationId} (st : InFlight) {s : State} (hr : (s.st n).power.supply ≠ .ramping)
    (ho : OutOfCohort n s) : (cutBlock n st s).cohorts = s.cohorts := by
  rcases cutBlock_cases n st hr with ⟨_, _, _, heq⟩ | ⟨_, _, _, _, _, _, heq⟩ | ⟨_, _, heq | ⟨_, heq⟩ | ⟨_, heq⟩ | heq⟩ <;> rw [heq]
  · unfold cutLink
    split
    case h_1 | h_2 | h_3 | h_4 | h_5 => simp
    all_goals rfl
  · exact liftChan_cohorts ..
  · exact abandonCollect_cohorts ..
  · cases hk : (s.ctx n).cohort with
    | none =>
      unfold leaveArrived
      rw [hk]
    | some k => rw [leaveArrived_absent hk (ho k hk).2]

/-- The step in flight ends STOPPED. -/
theorem cutFromOutside_stops {n : StationId} {st : InFlight} {s p : State} (h : LetGo n s p) (hs : (p.ctx n).step = some st) :
    let t := cutFromOutside n .stopped p
    LetGo n s t ∧ t.ctx n = endedCtx (cutBlock n st p) n st .stopped (outsideBytes p p n st .stopped) ∧
    (cutBlock n st p).ctx n = p.ctx n ∧
    OutcomeOffered n (endBytes p n st .stopped (outsideBytes p p n st .stopped)) t ∧ LinkCut n st p t := by
  have hr : (p.st n).power.supply ≠ .ramping := by rw [h.supply]; nofun
  obtain ⟨hctx, hpower, hlink, hpress, hnopress⟩ := cutBlock_station n st hr
  have hcohorts := cutBlock_cohorts st hr h.out
  have hfix := cutBlock_fixed n st p
  dsimp only
  rw [cutFromOutside_some hs, outsideResult_eq_outsideBytes]
  generalize cutBlock n st p = q at hctx hpower hlink hpress hnopress hcohorts hfix ⊢
  have hq : (q.ctx n).step = some st := by rw [hctx, hs]
  have hbytes : endBytes q n st .stopped (outsideBytes p p n st .stopped) = endBytes p n st .stopped (outsideBytes p p n st .stopped) := by
    unfold endBytes State.now
    rw [hctx, time_of_fixed hfix]
  have hlift : ∀ c, q.chan n c = p.chan n c ∨ q.chan n c = Channel.initial := fun c => by
    by_cases hp : (∀ c delay width, st.op ≠ .press c delay width) ∨ st.handed = true ∨ st.attached = false
    · exact Or.inl (hnopress hp c)
    · simp only [not_or, Bool.not_eq_true, Bool.not_eq_false, not_forall, not_not] at hp
      obtain ⟨⟨d, delay, width, hop⟩, hh, ha⟩ := hp
      obtain ⟨h1, h2⟩ := hpress d delay width hop hh ha
      by_cases hc : c = d
      · exact Or.inr (by rw [hc, h1])
      · exact Or.inl (h2 c hc)
  obtain ⟨⟨hectx, _⟩, _, hst⟩ := endStep_ends hq .stopped (outsideBytes p p n st .stopped)
  have hoff := endStep_offered hq .stopped (outsideBytes p p n st .stopped)
  have hecohorts := endStep_cohorts n .stopped (outsideBytes p p n st .stopped) q
  have hefix := endStep_fixed n .stopped (outsideBytes p p n st .stopped) q
  rw [hbytes] at hoff
  generalize endStep n .stopped (outsideBytes p p n st .stopped) q = t at hectx hst hoff hecohorts hefix ⊢
  refine ⟨(h.after hpower hlift (by rw [hctx]) hcohorts hfix).after (by rw [hst]) (fun c => Or.inl ?_) ?_ hecohorts hefix, hectx, hctx,
    hoff, linkCut_congr hlink rfl (by rw [hst])⟩
  · unfold State.chan
    rw [hst]
  · rw [hectx]
    rfl

/-! ### The turn of one station -/

theorem draining_inactive {n : StationId} {b : Bool} {s : State} (h : Draining n b s) : s.active = false := by
  unfold State.active
  rw [h.state]
  rfl

theorem draining_fetchLeft {n : StationId} {b : Bool} {s : State} (h : Draining n b s) :
    s.fetchLeft n = true ↔ b = true ∨ (s.ctx n).backlog = some .fetch := by
  unfold State.fetchLeft
  rw [h.fetch, draining_inactive h]
  simp

/-- A station that has arrived in IDLE, after changes that leave it and its queued part half. -/
theorem arrivedIdle_congr {n : StationId} {s t : State} (h : HasArrivedIdle n s) (hst : t.st n = s.st n) (hf : fixed t = fixed s)
    (hq : ∀ P, PartHalfQueued n P s → PartHalfQueued n P t) : HasArrivedIdle n t := by
  obtain ⟨h1, h2, h3, h4, h5, h6, h7, h8⟩ := h
  have hctx : t.ctx n = s.ctx n := congrArg Station.ctx hst
  refine ⟨by rw [hctx, h1], by rw [hctx, h2], by rw [hctx, h3], by rw [hctx, h4], by rw [hctx, h5], by rw [hctx, h6],
    by rw [hctx, h7], fun ht => ?_⟩
  have hshow : ShowsPartHalf n t = ShowsPartHalf n s := by
    unfold ShowsPartHalf State.now
    rw [hst, hctx, time_of_fixed hf]
  rw [hshow]
  exact hq _ (h8 ((takesWrites_congr (ctl_of_fixed hf)).mp ht))

/-- The fetch read of the station has been sent, or is kept by it. -/
def FetchReading (n : StationId) (s : State) : Prop :=
  (∃ e ∈ s.engine.queue, e.req.kind = .fetch n ∧ e.sent.isSome = true) ∨ (s.ctx n).backlog = some .fetch

theorem fetchReading_iff {n : StationId} {s p : State}
    (hd : Draining n (s.engine.queue.any fun e => e.req.kind == .fetch n && e.sent.isSome) p)
    (hc : (p.ctx n).backlog = (s.ctx n).backlog) :
    p.fetchLeft n = true ↔ FetchReading n s := by
  rw [draining_fetchLeft hd, hc]
  unfold FetchReading
  simp

/-- The quiesce has stopped the station: it is IDLE or on its way there, and its fetch phase goes on only with a read to wait
for. -/
def Stopped (n : StationId) (t : State) : Prop :=
  ((t.ctx n).state = .idle ∨ (t.ctx n).disabling = true) ∧ ((t.ctx n).state = .fetching → t.fetchLeft n = true)

theorem stopped_abortFetch {n : StationId} {s : State} (h : (s.ctx n).disabling = true) : Stopped n (abortFetch n s) := by
  cases hl : s.fetchLeft n with
  | true =>
    rw [abortFetch_left hl]
    exact ⟨Or.inr h, fun _ => hl⟩
  | false =>
    obtain ⟨v, heq, _⟩ := abortFetch_idle hl h
    rw [heq]
    refine ⟨Or.inl ?_, ?_⟩ <;> rw [arriveIdle_ctx]
    exact nofun

/-- The phase rule stops the station. -/
theorem stopped_disablePhase {n : StationId} {p q : State} (h : LetGo n p q) (hd : (q.ctx n).disabling = true) :
    Stopped n (disablePhase n q) := by
  have hcut : (q.ctx n).state ≠ .fetching → Stopped n (cutFromOutside n .stopped q) := fun hs => by
    cases hstep : (q.ctx n).step with
    | none =>
      rw [cutFromOutside_none hstep]
      exact ⟨Or.inr hd, fun e => absurd e hs⟩
    | some st =>
      obtain ⟨_, hctx, hb, _⟩ := cutFromOutside_stops h hstep
      unfold Stopped
      rw [hctx]
      unfold endedCtx
      rw [hb]
      exact ⟨Or.inr hd, nofun⟩
  have hidle : Stopped n (arriveIdle n q) := by
    refine ⟨Or.inl ?_, ?_⟩ <;> rw [arriveIdle_ctx]
    exact nofun
  unfold disablePhase
  split
  case h_1 hs | h_2 hs => exact ⟨Or.inr hd, fun e => by rw [hs] at e; cases e⟩
  case h_3 | h_4 => exact hidle
  case h_5 => exact stopped_abortFetch hd
  case h_6 hs | h_7 hs | h_8 hs => exact hcut (by rw [hs]; nofun)

theorem stopped_abandonUnits {n : StationId} {s : State} (h : Stopped n s) : Stopped n (abandonUnits n s) := h

/-- The turn of a station that is neither IDLE nor on its way there. -/
theorem quiesceStation_turn {n : StationId} {p : State} (ha : p.active = false) (hi : (p.ctx n).state ≠ .idle)
    (hd : (p.ctx n).disabling = false) : quiesceStation p n = abandonUnits n (disablePhase n (parted n p)) := by
  obtain ⟨hlet, hctx, _⟩ := parted_spec n p
  have hstop := stopped_disablePhase hlet (by rw [hctx])
  unfold quiesceStation
  rw [takeDisable_eq ha hi hd]
  generalize disablePhase n (parted n p) = v at hstop ⊢
  dsimp only
  split
  · next hs => exact abortFetch_left (hstop.2 hs)
  · rfl

/-- The quiesce stops every station in its turn. -/
theorem stopped_quiesceStation {n : StationId} {p : State} (ha : p.active = false) : Stopped n (quiesceStation p n) := by
  by_cases h : (p.ctx n).state = .idle ∨ (p.ctx n).disabling = true
  · have heq : quiesceStation p n = if (p.ctx n).state = .fetching then abortFetch n p else p := by
      unfold quiesceStation takeDisable
      rw [if_pos h]
    rw [heq]
    split
    · next hs => exact stopped_abortFetch (h.resolve_left (by rw [hs]; nofun))
    · next hs => exact ⟨h, fun e => absurd e hs⟩
  · simp only [not_or, Bool.not_eq_true] at h
    obtain ⟨hlet, hctx, _⟩ := parted_spec n p
    rw [quiesceStation_turn ha h.1 h.2]
    exact stopped_abandonUnits (stopped_disablePhase hlet (by rw [hctx]))

/-- A station arrives in IDLE, and its units are left. -/
theorem abandonUnits_arrived (n : StationId) (s : State) :
    HasArrivedIdle n (abandonUnits n (arriveIdle n s)) ∧
    (abandonUnits n (arriveIdle n s)).ctx n = (arriveIdle n s).ctx n :=
  ⟨arrivedIdle_congr (arriveIdle_arrived n s) rfl rfl fun _ => id, rfl⟩

theorem not_inStep {n : StationId} {s : State} {x : StationState} (hs : (s.ctx n).state = x)
    (hx : x ≠ .running ∧ x ≠ .waitingUnit ∧ x ≠ .atBarrier) {st : InFlight} : ¬InStep s n st := by
  rintro ⟨_, h⟩
  rw [hs] at h
  rcases h with h | h | h
  exacts [hx.1 h, hx.2.1 h, hx.2.2 h]

/-- The step of a station that the quiesce has reached has ended STOPPED (R40, R43, R76). -/
theorem abandonUnits_stopped {n : StationId} {st : InFlight} {s p q : State} (hlet : LetGo n p q)
    (hstep : (s.ctx n).step = some st) (hctx : q.ctx n = { s.ctx n with disabling := true })
    (hlink : (q.st n).link = (s.st n).link) (hnow : q.now = s.now) :
    let c := s.ctx n
    let t := abandonUnits n (cutFromOutside n .stopped q)
    let d := t.ctx n
    d.state = .posting ∧ d.posting = .ordinary .stopped st.noticeFlag st.disp ∧ d.disabling = true ∧ d.lastRun = c.retired ∧
    d.step = none ∧ d.deadline = none ∧ (d.taken = c.taken ∧ d.retired = c.retired) ∧
    OutsideOutcomeOffered n st .stopped s t ∧ LinkCut n st s t := by
  obtain ⟨_, hvctx, hbctx, hoffer, hcut⟩ := cutFromOutside_stops hlet (st := st) (by rw [hctx]; exact hstep)
  dsimp only
  rw [abandonUnits_ctx, hvctx]
  have hbytes : endBytes q n st .stopped (outsideBytes q q n st .stopped) =
      endBytes s n st .stopped (outsideBytes s (abandonUnits n (cutFromOutside n .stopped q)) n st .stopped) := by
    unfold endBytes outsideBytes
    rw [hctx, hlink, hnow]
    rfl
  rw [hbytes] at hoffer
  unfold endedCtx
  rw [hbctx, hctx]
  exact ⟨rfl, rfl, rfl, rfl, rfl, rfl, ⟨rfl, rfl⟩, hoffer, linkCut_congr hcut hlink.symm rfl⟩

/-- The quiesce reaches a station. -/
theorem quiesceStation_quiesced {n : StationId} {s p : State}
    (hd : Draining n (s.engine.queue.any fun e => e.req.kind == .fetch n && e.sent.isSome) p) (hst : p.st n = s.st n)
    (hf : p.now = s.now) : Quiesced n s (quiesceStation p n) := by
  intro hi hdis
  have hpctx : p.ctx n = s.ctx n := congrArg Station.ctx hst
  have hactive := draining_inactive hd
  have K := draining_kept n (s.engine.queue.any fun e => e.req.kind == .fetch n && e.sent.isSome)
  have hdq : Draining n _ (parted n p) := K.liftAll (K.leaveLive (K.acts.setSupply (K.setCtx hd) trivial))
  obtain ⟨hlet, hctx, hlink⟩ := parted_spec n p
  rw [quiesceStation_turn hactive (by rw [hpctx]; exact hi) (by rw [hpctx]; exact hdis)]
  generalize parted n p = q at hdq hlet hctx hlink ⊢
  rw [hpctx] at hctx
  rw [hst] at hlink
  have hphase : ∀ x, (s.ctx n).state = x → (q.ctx n).state = x := fun x hx => by rw [hctx]; exact hx
  have hleft : q.fetchLeft n = true ↔ FetchReading n s := fetchReading_iff hdq (by rw [hctx])
  have never : ∀ {x y : StationState} {P : Prop}, (s.ctx n).state = x → x ≠ y → (s.ctx n).state = y → P :=
    fun hx hne hy => absurd (hx.symm.trans hy) hne
  cases hs : (s.ctx n).state with
  | idle => exact absurd hs hi
  | ready | halted =>
    have hv : disablePhase n q = arriveIdle n q := by unfold disablePhase; rw [hphase _ hs]
    obtain ⟨hoff, hout⟩ := hlet.arriveIdle.switchedOff
    obtain ⟨hidle, hc⟩ := abandonUnits_arrived n q
    rw [hv]
    refine ⟨hoff, hout, fun _ => ⟨hidle, ?_, ?_⟩, never hs nofun, never hs nofun,
      fun _ h => absurd h (not_inStep hs (by decide)), never hs nofun⟩
    · rw [hc, arriveIdle_ctx, hctx]
      exact ⟨rfl, rfl⟩
    · rw [hc, arriveIdle_ctx, hctx]
  | fetching =>
    by_cases hr : FetchReading n s
    · have hl := hleft.mpr hr
      have hv : disablePhase n q = q := by unfold disablePhase; rw [hphase _ hs]; exact abortFetch_left hl
      obtain ⟨hoff, hout⟩ := hlet.switchedOff
      have hc : (abandonUnits n q).ctx n = q.ctx n := rfl
      rw [hv]
      refine ⟨hoff, hout, fun h => h.elim (never hs nofun) (never hs nofun), fun _ _ => ?_, fun _ h => absurd hr h,
        fun _ h => absurd h (not_inStep hs (by decide)), never hs nofun⟩
      · rw [hc, hctx]
        exact ⟨hs, rfl, rfl, rfl⟩
    · have hl : q.fetchLeft n = false := by
        rw [← Bool.not_eq_true, hleft]
        exact hr
      obtain ⟨w, heq, hwst, hwctx, hwcoh, hwfix⟩ := abortFetch_idle hl (by rw [hctx])
      have hv : disablePhase n q = arriveIdle n w := by unfold disablePhase; rw [hphase _ hs]; exact heq
      have hletw : LetGo n p w := hlet.after (by rw [hwst]) (fun c => Or.inl (by unfold State.chan; rw [hwst])) (by rw [hwctx])
        hwcoh hwfix
      obtain ⟨hoff, hout⟩ := hletw.arriveIdle.switchedOff
      obtain ⟨hidle, hc⟩ := abandonUnits_arrived n w
      rw [hv]
      refine ⟨hoff, hout, fun h => h.elim (never hs nofun) (never hs nofun), fun _ h => absurd h hr,
        fun _ _ => ⟨hidle, ?_, ?_, ?_⟩, fun _ h => absurd h (not_inStep hs (by decide)), never hs nofun⟩
      · rw [hc, arriveIdle_ctx, hwctx, hctx]
        dsimp only
        rw [hs]
        rfl
      · rw [hc, arriveIdle_ctx, hwctx, hctx]
      · rw [hc, arriveIdle_ctx, hwctx, hctx]
  | posting =>
    have hv : disablePhase n q = q := by unfold disablePhase; rw [hphase _ hs]
    obtain ⟨hoff, hout⟩ := hlet.switchedOff
    have hc : (abandonUnits n q).ctx n = q.ctx n := rfl
    rw [hv]
    refine ⟨hoff, hout, fun h => h.elim (never hs nofun) (never hs nofun), never hs nofun, never hs nofun,
      fun _ h => absurd h (not_inStep hs (by decide)), fun _ => ?_⟩
    · rw [hc, hctx]
      exact ⟨hs, rfl, rfl, rfl, rfl⟩
  | running | waitingUnit | atBarrier =>
    have hcut : disablePhase n q = cutFromOutside n .stopped q := by unfold disablePhase; rw [hphase _ hs]
    cases hstep : (s.ctx n).step with
    | none =>
      obtain ⟨hoff, hout⟩ := hlet.switchedOff
      rw [hcut, cutFromOutside_none (by rw [hctx]; exact hstep)]
      refine ⟨hoff, hout, fun h => h.elim (never hs nofun) (never hs nofun), never hs nofun, never hs nofun, fun st ⟨h, _⟩ => ?_,
        never hs nofun⟩
      rw [hstep] at h
      cases h
    | some st =>
      have hqstep : (q.ctx n).step = some st := by rw [hctx]; exact hstep
      obtain ⟨hoff, hout⟩ := (cutFromOutside_stops hlet hqstep).1.switchedOff
      rw [hcut]
      refine ⟨hoff, hout, fun h => h.elim (never hs nofun) (never hs nofun), never hs nofun, never hs nofun, fun st' ⟨h, _⟩ => ?_,
        never hs nofun⟩
      obtain rfl := Option.some.inj (hstep.symm.trans h)
      exact abandonUnits_stopped hlet hstep hctx hlink (hlet.now.trans hf)

end Sys2Proof.Proofs
end

section
/-! PROOFS. The part leaves ACTIVE: a CONTROL write that clears RUN, and a sweep read that faults (R43, R162, R173, R190,
R191). -/

namespace Sys2Proof.Proofs

open Sys2Proof.Machine Sys2Proof.Laws

/-! ### What the turns of the others leave of a quiesced station -/

theorem unbound_of_switchedOff {n : StationId} {s : State} (h : SwitchedOff n s) : Unbound n s := ⟨h.2.2.2, h.2.2.1⟩

theorem switchedOff_aside {n : StationId} {s t : State} (k : Aside n s t) (h : SwitchedOff n s) : SwitchedOff n t := by
  obtain ⟨hwait, hunit⟩ := k.unbound (unbound_of_switchedOff h)
  obtain ⟨hsupply, hchan, _⟩ := h
  refine ⟨by rw [k.st, hsupply], fun c => ?_, hunit, hwait⟩
  unfold State.chan
  rw [k.st]
  exact hchan c

theorem outOfCohort_aside {n : StationId} {s t : State} (k : Aside n s t) (h : OutOfCohort n s) : OutOfCohort n t := by
  intro c hc
  rw [k.ctx] at hc
  obtain ⟨hlive, harr⟩ := h c hc
  exact ⟨fun hm => hlive ((k.cohort c).live.mp hm), (k.cohort c).absent harr⟩

/-- A quiesced station stays as it is while the others take their turns. -/
theorem quiesced_aside {n : StationId} {s r t : State} (h : Quiesced n s r) (k : Aside n r t)
    (hq : ∀ P, PartHalfQueued n P r → PartHalfQueued n P t) (hw : ∀ {P : State → Prop}, KeptByWork P → P r → P t) :
    Quiesced n s t := by
  intro hi hdis
  obtain ⟨hoff, hout, hrest, hreads, hfetch, hstep, hpost⟩ := h hi hdis
  have harr : HasArrivedIdle n r → HasArrivedIdle n t := fun h => arrivedIdle_congr h k.st k.fixed hq
  rw [← k.ctx] at hrest hreads hfetch hstep hpost
  refine ⟨switchedOff_aside k hoff, outOfCohort_aside k hout, fun hs => ?_, hreads, fun hs hn => ?_, fun st hst => ?_, hpost⟩
  · obtain ⟨ha, hrest⟩ := hrest hs
    exact ⟨harr ha, hrest⟩
  · obtain ⟨ha, hrest⟩ := hfetch hs hn
    exact ⟨harr ha, hrest⟩
  · obtain ⟨h1, h2, h3, h4, h5, h6, h7, hoffer, hcut⟩ := hstep st hst
    exact ⟨h1, h2, h3, h4, h5, h6, h7, outcomeOffered_kept hoffer k.ctx k.ctl hw, linkCut_congr hcut rfl (by rw [k.st])⟩

theorem quiesceStation_fixed (s : State) (n : StationId) : fixed (quiesceStation s n) = fixed s := by
  unfold quiesceStation
  dsimp only
  split
  · rw [abortFetch_fixed, takeDisable_fixed]
  · exact takeDisable_fixed n s

/-- The turn of the station among the turns of the others. -/
theorem quiesceStations_turn {s : State} (n : StationId) (ha : s.active = false) :
    ∃ p, Aside n s p ∧ (∀ {P : State → Prop}, KeptByWork P → P s → P p) ∧
      let r := quiesceStation p n
      let t := (List.finRange 24).foldl quiesceStation s
      Aside n r t ∧ (∀ P, PartHalfQueued n P r → PartHalfQueued n P t) ∧ (∀ {P : State → Prop}, KeptByWork P → P r → P t) := by
  obtain ⟨before, after, hb, ha', _, hfold⟩ := foldl_finRange_turn quiesceStation n s
  have hturns : ∀ (l : List StationId) {u : State} {P : State → Prop}, KeptByWork P → P u → P (l.foldl quiesceStation u) :=
    fun l {u P} K hu => foldl_keeps_prop (P := P) (f := quiesceStation) (fun {_} m ht => K.halts.quiesceStation ht m trivial) l hu
  have hasides : ∀ (l : List StationId), n ∉ l → ∀ {u : State}, u.active = false → Aside n u (l.foldl quiesceStation u) :=
    fun l hl {u} hu => foldl_keeps_others (P := Aside n u) (f := quiesceStation)
      (fun hm ht => (aside_kept (Or.inl hu)).quiesceStation ht _ hm) hl (.refl n u)
  have hp := hasides before hb ha
  rw [hfold]
  generalize hpd : before.foldl quiesceStation s = p at hp ⊢
  have hpa : p.active = false := by
    unfold State.active at ha ⊢
    rw [hp.ctl]
    exact ha
  have hra : (quiesceStation p n).active = false := by
    unfold State.active at hpa ⊢
    rw [ctl_of_fixed (quiesceStation_fixed p n)]
    exact hpa
  refine ⟨p, hp, fun K hs => hpd ▸ hturns before K hs, ?_⟩
  generalize quiesceStation p n = r at hra ⊢
  exact ⟨hasides after ha' hra, fun P hr => foldl_keeps_others (P := PartHalfQueued n P) (f := quiesceStation)
    (fun hm ht => (partHalfQueued_kept n P).halts.quiesceStation ht _ hm) ha' hr, fun K hr => hturns after K hr⟩

/-! ### The lines (R162) -/

/-- Both lines are OFF with no hold. -/
def LinesOff (t : State) : Prop := ∀ l, (t.line l).drive = .off ∧ (t.line l).hold = none

theorem linesOff_congr {s t : State} (h : LinesOff s) (hl : ∀ l, t.line l = s.line l) : LinesOff t := fun l => by
  rw [hl]
  exact h l

theorem linesOff_lines {s t : State} (h : LinesOff s) (ha : t.lineA = s.lineA) (hb : t.lineB = s.lineB) : LinesOff t :=
  linesOff_congr h fun l => by cases l <;> assumption

theorem judgeLine_off {l : Line} {s : State} (h : (s.line l).drive = .off) : judgeLine l s = s := by
  unfold judgeLine
  rw [h]

theorem linesOff_settleCohort {s : State} (k : CohortId) (h : LinesOff s) : LinesOff (settleCohort k s) := by
  obtain ⟨v, hv, hcases⟩ := settleCohort_cases k s
  have hoff : LinesOff v := by
    rcases hcases with rfl | ⟨x, rfl⟩
    · exact linesOff_congr h (releaseRound_frame k s).1
    · exact linesOff_congr h fun l => setCohort_line ..
  rw [hv, judgeLine_off (l := .a) (hoff .a).1, judgeLine_off (l := .b) (hoff .b).1]
  exact hoff

/-- Only the judging after a change of a cohort touches a line, and one that is OFF stays so. -/
theorem linesOff_kept : KeptByHalts (fun _ => True) LinesOff where
  setSt h _ := linesOff_lines h rfl rfl
  edge h _ := linesOff_lines h rfl rfl
  offer h _ := linesOff_lines h (by simp) (by simp)
  partHalf h _ := linesOff_lines h (by simp) (by simp)
  withdraw h _ := linesOff_lines h rfl rfl
  abandonUnits h _ := linesOff_lines h (by simp) (by simp)
  abandonCollect h _ := linesOff_lines h (by simp) (by simp)
  leaveList h _ := linesOff_lines h rfl rfl
  arbitrate h := linesOff_lines h (by simp) (by simp)
  joinLive h _ := by
    unfold Machine.joinLive
    split
    · exact h
    · exact linesOff_settleCohort _ (linesOff_congr h fun l => setCohort_line ..)
  leaveLive h _ := by
    unfold Machine.leaveLive
    split
    · exact h
    · split
      · exact linesOff_settleCohort _ (linesOff_congr h fun l => setCohort_line ..)
      · exact h
  leaveArrived h _ := by
    unfold Machine.leaveArrived
    split
    · exact h
    · split
      · exact linesOff_settleCohort _ (linesOff_congr h fun l => setCohort_line ..)
      · exact h
  attention h _ := linesOff_lines h (by simp) (by simp)

/-! ### The part leaves ACTIVE (R190, R191) -/

/-- The part once the engine drains and both lines are OFF, before the stations are quiesced. -/
def drained (d : Destination) (s : State) : State :=
  setDrive .b .off (setDrive .a .off (startDrain { s with ctl := { s.ctl with state := .quiescing, dest := d } }))

theorem enterQuiesce_eq (d : Destination) (s : State) :
    enterQuiesce d s = (List.finRange 24).foldl quiesceStation (drained d s) := rfl

theorem drained_spec (d : Destination) (s : State) :
    (drained d s).ctl = { s.ctl with state := .quiescing, dest := d } ∧ (drained d s).stations = s.stations ∧
    (drained d s).time = s.time ∧ (drained d s).sentLog = s.sentLog ∧ (drained d s).sweep.timer = none ∧
    (drained d s).sweep.pending = false ∧ LinesOff (drained d s) ∧
    ∀ n, Draining n (s.engine.queue.any fun e => e.req.kind == .fetch n && e.sent.isSome) (drained d s) := by
  have hdrain := fun n => startDrain_spec n (s := { s with ctl := { s.ctl with state := .quiescing, dest := d } }) rfl
  have hlines : LinesOff (drained d s) := by
    unfold drained
    generalize startDrain { s with ctl := { s.ctl with state := .quiescing, dest := d } } = u
    obtain ⟨hb, _, hhb, hneb⟩ := setDrive_spec .b .off (setDrive .a .off u)
    obtain ⟨ha, _, hha, _⟩ := setDrive_spec .a .off u
    intro l
    cases l
    · rw [hneb .a (by decide)]
      exact ⟨ha, hha⟩
    · exact ⟨hb, hhb⟩
  refine ⟨?_, ?_, ?_, ?_, (hdrain 0).2.1, (hdrain 0).2.2, hlines, fun n => draining_congr (hdrain n).1 rfl rfl⟩ <;>
    simp [drained, setDrive, startDrain]

/-- The part has left ACTIVE: the drain, the sweep, the lines and the stations. -/
theorem enterQuiesce_spec (d : Destination) (s : State) :
    let t := enterQuiesce d s
    t.ctl = { s.ctl with state := .quiescing, dest := d } ∧ t.sweep.timer = none ∧ t.sweep.pending = false ∧ t.time = s.time ∧
    t.sentLog = s.sentLog ∧ LinesOff t ∧
    (∀ n, Draining n (s.engine.queue.any fun e => e.req.kind == .fetch n && e.sent.isSome) t) ∧
    (∀ n, Stopped n t) ∧ ∀ n, Quiesced n s t := by
  obtain ⟨hctl, hst, htime, hlog, htimer, hpending, hlines, hdrain⟩ := drained_spec d s
  dsimp only
  rw [enterQuiesce_eq]
  generalize drained d s = q at hctl hst htime hlog htimer hpending hlines hdrain ⊢
  have hfix : fixed ((List.finRange 24).foldl quiesceStation q) = fixed q :=
    foldl_keeps_prop (P := fun t => fixed t = fixed q) (f := quiesceStation) (fun {t} m ht => (quiesceStation_fixed t m).trans ht) _ rfl
  have hturn : ∀ n, Draining n (s.engine.queue.any fun e => e.req.kind == .fetch n && e.sent.isSome)
      ((List.finRange 24).foldl quiesceStation q) ∧ Stopped n ((List.finRange 24).foldl quiesceStation q) ∧
      Quiesced n s ((List.finRange 24).foldl quiesceStation q) := fun n => by
    obtain ⟨p, hp, hbefore, hafter, hqueued, hwork⟩ := quiesceStations_turn n (draining_inactive (hdrain n))
    have K := draining_kept n (s.engine.queue.any fun e => e.req.kind == .fetch n && e.sent.isSome)
    have hpd := hbefore K (hdrain n)
    have hquiesced : Quiesced n s (quiesceStation p n) := by
      refine quiesceStation_quiesced hpd (hp.st.trans (st_congr hst n)) ?_
      rw [hp.now]
      unfold State.now
      rw [htime]
    have hstopped := stopped_quiesceStation (n := n) (draining_inactive hpd)
    have hrd : Draining n (s.engine.queue.any fun e => e.req.kind == .fetch n && e.sent.isSome) (quiesceStation p n) :=
      K.halts.quiesceStation hpd n trivial
    generalize quiesceStation p n = r at hafter hqueued hwork hquiesced hstopped hrd
    have htd := hwork K hrd
    refine ⟨htd, ⟨by rw [hafter.ctx]; exact hstopped.1, fun hs => ?_⟩, quiesced_aside hquiesced hafter hqueued hwork⟩
    rw [fetchLeft_congr (htd.fetch.trans hrd.fetch.symm) hafter.ctl (by rw [hafter.ctx])]
    exact hstopped.2 (by rw [← hafter.ctx]; exact hs)
  have hoff : LinesOff ((List.finRange 24).foldl quiesceStation q) :=
    foldl_keeps_prop (P := LinesOff) (f := quiesceStation) (fun m ht => linesOff_kept.quiesceStation ht m trivial) _ hlines
  generalize (List.finRange 24).foldl quiesceStation q = t at hfix hturn hoff ⊢
  exact ⟨(ctl_of_fixed hfix).trans hctl, by rw [sweep_of_fixed hfix, htimer], by rw [sweep_of_fixed hfix, hpending],
    (time_of_fixed hfix).trans htime, (sentLog_of_fixed hfix).trans hlog, hoff, fun n => (hturn n).1, fun n => (hturn n).2.1,
    fun n => (hturn n).2.2⟩

/-- What the part shows of its reads while it drains. -/
theorem stopped_reads {n : StationId} {b : Bool} {t : State} (h : Stopped n t) (hd : Draining n b t)
    (hs : (t.ctx n).state = .fetching) : t.engine.inQueue (.fetch n) = true ∨ (t.ctx n).backlog = some .fetch := by
  rw [hd.fetch]
  exact (draining_fetchLeft hd).mp (h.2 hs)

/-- Settles O18: the CONTROL write reaches `enterQuiesce` with destination CONFIG. -/
theorem quiesceStopsSweepLinesAndStations : Obligations.QuiesceStopsSweepLinesAndStations := by
  intro s w be hs hbe hw hsoft
  have hexec : exec (.quiesce w be) s = .next (enterQuiesce .config { s with ctl := controlStored w be s.ctl }) := by
    rw [exec_controlRow (w := w) (be := be) (by simp [controlRows]), controlWrite_enabled hbe hsoft]
    refine congrArg Host.Outcome.next (controlReact_quiesce ?_ ?_)
    · rw [← hs]
      rfl
    · exact hw
  obtain ⟨hctl, htimer, hpending, htime, hlog, hlines, hdrain, hstop, hquiet⟩ :=
    enterQuiesce_spec .config { s with ctl := controlStored w be s.ctl }
  exact ⟨_, hexec, hctl, htimer, hpending, htime, hlog, hlines, (hdrain 0).queue, (hdrain 0).room, fun n => (hstop n).1,
    fun n => stopped_reads (hstop n) (hdrain n), hquiet⟩

/-! ### A sweep read that faults (R191) -/

/-- A quiesced station, seen from an earlier state with the station, the clock and its sent fetch read as they were. -/
theorem quiesced_from {n : StationId} {s u t : State} (h : Quiesced n u t) (hst : u.st n = s.st n) (hnow : u.now = s.now)
    (hread : FetchReading n u ↔ FetchReading n s) : Quiesced n s t := by
  have hctx : u.ctx n = s.ctx n := congrArg Station.ctx hst
  intro hi hdis
  obtain ⟨hoff, hout, hrest, hreads, hfetch, hstep, hpost⟩ := h (by rw [hctx]; exact hi) (by rw [hctx]; exact hdis)
  rw [hctx] at hrest hreads hfetch hpost
  refine ⟨hoff, hout, hrest, fun hs hr => hreads hs ?_, fun hs hr => hfetch hs ?_, fun st hst' => ?_, hpost⟩
  · have := hread.mpr hr
    unfold FetchReading at this
    rwa [hctx] at this
  · have := mt hread.mp hr
    unfold FetchReading at this
    rwa [hctx] at this
  · unfold InStep at hstep
    rw [hctx] at hstep
    obtain ⟨h1, h2, h3, h4, h5, h6, h7, hoffer, hcut⟩ := hstep st hst'
    refine ⟨h1, h2, h3, h4, h5, h6, h7, ?_, linkCut_congr hcut (by rw [hst]) rfl⟩
    unfold OutsideOutcomeOffered endBytes outsideBytes at hoffer ⊢
    rw [hctx, hnow, hst] at hoffer
    exact hoffer

/-- The freed entry of a read that is no fetch read leaves every station its sent fetch read. -/
theorem fetchReading_freeRead {n : StationId} {s : State} {tag : Nat}
    (h : ∀ x ∈ s.engine.queue, x.hasTag tag = true → x.req.kind = .sweepRead) :
    FetchReading n (freeRead tag s) ↔ FetchReading n s := by
  have hst : (freeRead tag s).st n = s.st n := st_congr (refill_stations _) n
  have hqueue : (∃ e ∈ (freeRead tag s).engine.queue, e.req.kind = .fetch n ∧ e.sent.isSome = true) ↔
      ∃ e ∈ s.engine.queue.filter fun e => !e.hasTag tag, e.req.kind = .fetch n ∧ e.sent.isSome = true := by
    unfold freeRead
    rcases refill_engine { s with engine := { s.engine with queue := s.engine.queue.filter fun e => !e.hasTag tag } } with
      he | ⟨r, rest, _, _, he⟩ <;> rw [he]
    simp [or_and_right, exists_or]
  have hfilter : (∃ e ∈ s.engine.queue.filter fun e => !e.hasTag tag, e.req.kind = .fetch n ∧ e.sent.isSome = true) ↔
      ∃ e ∈ s.engine.queue, e.req.kind = .fetch n ∧ e.sent.isSome = true := by
    refine exists_congr fun e => and_congr_left fun ⟨hk, _⟩ => ?_
    rw [List.mem_filter]
    refine and_iff_left_of_imp fun he => ?_
    rw [Bool.not_eq_true']
    exact Bool.eq_false_iff.mpr fun ht => by rw [h e he ht] at hk; cases hk
  unfold FetchReading
  rw [hqueue, hfilter, State.ctx, hst]

/-- Settles O30: the fault of the sweep read reaches `enterQuiesce` with destination FAULTED. -/
theorem faultedSweepQuiescesTowardFaulted : Obligations.FaultedSweepQuiescesTowardFaulted := by
  intro s tag e r he hr hk hs i hi
  have hctlf : (freeRead tag s).ctl = s.ctl := refill_ctl _
  have hstf : ∀ n, (freeRead tag s).st n = s.st n := st_congr (refill_stations _)
  have hnowf : (freeRead tag s).now = s.now := by
    unfold State.now
    rw [show (freeRead tag s).time = s.time from refill_time _]
  have hread := fun n => fetchReading_freeRead (n := n) (s := s) (tag := tag)
  have hexec := exec_of_readFaults he hr hi
  rw [hk] at hexec
  generalize freeRead tag s = u at hctlf hstf hnowf hread hexec
  have hfault : readFaulted .sweepRead u = enterQuiesce .faulted
      { u with sweep := { u.sweep with inFlight := false }, ctl := { u.ctl with fault := .sweepRead } } := by
    refine if_pos ?_
    show (u.ctl.state == .active) = true
    rw [hctlf, hs]
    rfl
  rw [hfault] at hexec
  obtain ⟨hctl, htimer, hpending, _, _, hlines, _, hstop, hquiet⟩ := enterQuiesce_spec .faulted
    { u with sweep := { u.sweep with inFlight := false }, ctl := { u.ctl with fault := .sweepRead } }
  refine ⟨_, hexec, ?_, htimer, hpending, hlines, fun n => (hstop n).1, fun h n => quiesced_from (hquiet n) (hstf n) hnowf (hread n h)⟩
  rw [hctl, ← hctlf]

end Sys2Proof.Proofs
end

section
/-! PROOFS. What a sweep does with stations that it asks nothing of but a handover count (R10, R16, R20 to R22). -/

namespace Sys2Proof.Proofs

open Sys2Proof.Machine Sys2Proof.Laws

/-! ### The next record in ACTIVE -/

/-- An offer changes the engine alone. -/
theorem offer_alone {r : Request} (hr : ∀ n, r.kind ≠ .partHalf n) (s : State) :
    offer r s = { s with engine := (offer r s).engine } := by
  have hn := offer_notice r s hr
  ext1 <;> simp [hn]

/-- A station's offer changes its context and the engine alone. -/
theorem stationOffer_alone (n : StationId) (b : Backlog) (s : State) :
    OnlyStationEngine n s (stationOffer n b s) ∧
    (stationOffer n b s).st n = { s.st n with ctx := (stationOffer n b s).ctx n } := by
  have hst : (stationOffer n b s).st n = { s.st n with ctx := (stationOffer n b s).ctx n } := by
    unfold stationOffer
    split
    · rw [setCtx_ctx_self, setCtx_st_self]
    · rw [offer_ctx, offer_st, setCtx_ctx_self, setCtx_st_self]
  refine ⟨⟨?_, fun m hm => stationOffer_st_ne hm b s⟩, hst⟩
  unfold stationOffer
  split
  · rfl
  · have halone := offer_alone (r := stationRequest s n b) (by cases b <;> exact nofun) (s.setCtx n { s.ctx n with backlog := none })
    rw [halone]
    rfl

/-- A fetch that begins in ACTIVE. -/
theorem startFetch_spec {n : StationId} {u : State} (h : u.ctl.state = .active) :
    (∃ b, (startFetch n u).ctx n =
      { u.ctx n with state := .fetching, posting := .none, taken := (u.ctx n).taken + 1, backlog := b }) ∧
    (startFetch n u).st n = { u.st n with ctx := (startFetch n u).ctx n } ∧ FetchOffered n (startFetch n u) ∧
    OnlyStationEngine n u (startFetch n u) := by
  unfold startFetch
  generalize hx : ({ u.ctx n with state := .fetching, posting := .none, taken := (u.ctx n).taken + 1 } : Context) = x
  rw [offerFetch_active (by exact h)]
  refine ⟨?_, ?_, stationOffer_fetch n (by exact h), onlyStationEngine_of (onlyStation_setSt u n _) (stationOffer_alone ..).1⟩
  · rw [stationOffer_ctx, if_pos rfl, setCtx_ctx_self, ← hx]
    exact ⟨_, rfl⟩
  · rw [(stationOffer_alone ..).2, setCtx_st_self]

theorem onlyStationShared_setSt (s : State) (n : StationId) (x : Station) : OnlyStationShared n s (s.setSt n x) :=
  ⟨rfl, (onlyStation_setSt s n x).2⟩

theorem onlyStationShared_of_engine {n : StationId} {s t : State} (h : OnlyStationEngine n s t) : OnlyStationShared n s t := by
  obtain ⟨hf, ho⟩ := h
  exact ⟨by rw [hf], ho⟩

/-- A station that goes on in ACTIVE changes itself and the engine. -/
theorem takeNext_shared {n : StationId} {u : State} (h : u.ctl.state = .active) : OnlyStationShared n u (takeNext n u) := by
  unfold takeNext
  split
  · exact onlyStationShared_setSt ..
  · split
    · exact onlyStationShared_of_engine (startFetch_spec h).2.2.2
    · exact onlyStationShared_of_engine (onlyStationEngine_of (onlyStation_setSt u n _) (stationOffer_alone ..).1)

/-! ### A calm observation -/

/-- The bytes of the directory that are the host half of the station (R9). -/
def hostBytes (data : List Byte) (n : StationId) : List Byte := (data.drop (64 * n.1)).take 32

/-- The observation asks nothing of a station of context `c` but to take a handover count that passes. -/
def TurnCalm (c : Context) (h : HostHalf) : Prop :=
  (c.state = .idle ∧ h.enabled = false) ∨
  (c.state ≠ .idle ∧ h.enabled = true ∧ h.stop = c.stopSeen ∧ h.resume = c.resumeSeen ∧ c.handoverPasses h.handover = true)

/-- An IDLE station takes a stop count and a resume count alone. -/
theorem idle_takesCounts {n : StationId} {u : State} (h : HostHalf) (hs : (u.ctx n).state = .idle) :
    OnlyStationShared n u (resumeStep n h (stopStep n h u)) ∧ ((resumeStep n h (stopStep n h u)).ctx n).state = .idle := by
  have hstop : OnlyStationShared n u (stopStep n h u) ∧ ((stopStep n h u).ctx n).state = .idle := by
    unfold stopStep
    split
    · exact ⟨⟨rfl, fun _ _ => rfl⟩, hs⟩
    · have hidle : ((queuePartHalf n (u.setCtx n { u.ctx n with stopSeen := h.stop })).ctx n).state = .idle := by
        rw [queuePartHalf_ctx, setCtx_ctx_self]
        exact hs
      rw [haltFromOutside_rests _ _ (Or.inl hidle)]
      exact ⟨onlyStationShared_trans (onlyStationShared_setSt ..) (queuePartHalf_shared n n _), hidle⟩
  obtain ⟨hshared, hidle⟩ := hstop
  generalize stopStep n h u = v at hshared hidle ⊢
  unfold resumeStep
  dsimp only
  split
  · exact ⟨hshared, hidle⟩
  · rw [if_neg (by rw [hidle]; nofun)]
    refine ⟨onlyStationShared_trans hshared (onlyStationShared_trans (onlyStationShared_setSt ..) (queuePartHalf_shared n n _)), ?_⟩
    rw [queuePartHalf_ctx, setCtx_ctx_self]
    exact hidle

/-- A calm observation changes the station itself, the engine and the held updates awaited alone. -/
theorem calm_turn {n : StationId} {u : State} (ha : u.ctl.state = .active) {bs : List Byte}
    (h : TurnCalm (u.ctx n) (hostHalfOf bs)) : OnlyStationShared n u (observe n bs u) := by
  unfold observe
  dsimp only
  generalize hostHalfOf bs = x at h ⊢
  rcases h with ⟨hs, hoff⟩ | ⟨hs, hon, hstop, hresume, hpass⟩
  · have hmode : modeStep n x u = u := by
      unfold modeStep takeDisable
      rw [if_neg (by rw [hoff]; exact Bool.false_ne_true), if_pos (Or.inl hs)]
    obtain ⟨hshared, hidle⟩ := idle_takesCounts x hs
    rw [hmode]
    unfold handoverStep
    rw [if_pos (Or.inl hidle)]
    exact hshared
  · have hmode : modeStep n x u = u := by
      unfold modeStep
      rw [if_pos hon, if_neg hs]
    have hcounts : resumeStep n x (stopStep n x u) = u := by
      unfold resumeStep stopStep
      rw [if_pos hstop, if_pos hresume]
    rw [hmode, hcounts]
    unfold handoverStep
    dsimp only
    split
    · exact ⟨rfl, fun _ _ => rfl⟩
    · unfold handoverPassed
      dsimp only
      have hset := onlyStationShared_setSt u n { u.st n with ctx := { u.ctx n with
        lastRead := x.handover, badMark := false, posting := (u.ctx n).posting.cut (u.ctx n).taken x.handover } }
      split
      · exact onlyStationShared_trans hset (takeNext_shared (by exact ha))
      · exact hset

/-- The cohorts, the lines, Part Control and the stations outside the list are as they were. -/
structure CalmKept (l : List StationId) (s t : State) : Prop where
  st : ∀ m, m ∉ l → t.st m = s.st m
  cohorts : t.cohorts = s.cohorts
  line : ∀ x, t.line x = s.line x
  ctl : t.ctl = s.ctl

/-- The calm turns of several stations, each of them once. -/
theorem calm_turns (data : List Byte) {l : List StationId} (hl : l.Nodup) {s : State} (ha : s.ctl.state = .active)
    (h : ∀ m ∈ l, TurnCalm (s.ctx m) (observed data m)) :
    CalmKept l s (l.foldl (fun t n => observe n (hostBytes data n) t) s) := by
  induction l generalizing s with
  | nil => exact ⟨fun _ _ => rfl, rfl, fun _ => rfl, rfl⟩
  | cons m l ih =>
    obtain ⟨hm, hl⟩ := List.nodup_cons.mp hl
    have hturn : OnlyStationShared m s (observe m (hostBytes data m) s) := calm_turn ha (h m List.mem_cons_self)
    rw [List.foldl_cons]
    generalize observe m (hostBytes data m) s = u at hturn ⊢
    obtain ⟨hf, ho⟩ := hturn
    have hne : ∀ j ∈ l, j ≠ m := fun j hj he => hm (he ▸ hj)
    obtain ⟨kst, kcohorts, kline, kctl⟩ := ih (s := u) hl (by rw [hf]; exact ha) fun j hj => by
      rw [State.ctx, ho j (hne j hj)]
      exact h j (List.mem_cons_of_mem _ hj)
    have huc : u.cohorts = s.cohorts := by rw [hf]
    have hul : ∀ x, u.line x = s.line x := fun x => by
      rw [hf]
      cases x <;> rfl
    have hut : u.ctl = s.ctl := by rw [hf]
    refine ⟨fun j hj => ?_, kcohorts.trans huc, fun x => (kline x).trans (hul x), kctl.trans hut⟩
    obtain ⟨hjm, hjl⟩ := not_or.mp (fun h => hj (List.mem_cons.mpr h))
    rw [kst j hjl, ho j hjm]

end Sys2Proof.Proofs
end

section
/-! PROOFS. The turn of an IDLE station that its host half enables (R11, R12, R16, R145, R149, R156). -/

namespace Sys2Proof.Proofs

open Sys2Proof.Machine Sys2Proof.Laws

/-! ### A station joins its cohort (R145, R149, R156) -/

/-- The cohort with the station in its live set. -/
def Cohort.withLive (n : StationId) (x : Cohort) : Cohort :=
  { x with live := (List.finRange 24).filter fun m => m == n || x.live.contains m }

theorem withLive_incomplete {n : StationId} {x : Cohort} (h : Cohort.Absent n x) : (Cohort.withLive n x).complete = false :=
  complete_false_of (m := n) (by simp [Cohort.withLive]) h

theorem joinLive_some {n : StationId} {s : State} {k : CohortId} (hk : (s.ctx n).cohort = some k) :
    joinLive n s = settleCohort k (s.setCohort k (Cohort.withLive n (s.cohort k))) := by
  unfold joinLive
  rw [hk]
  rfl

/-- A station that has not arrived joins without a release: its round is not complete. -/
theorem joinLive_spec {n : StationId} {s : State} (hna : NotArrived s n) :
    let t := joinLive n s
    t = { s with cohorts := t.cohorts, lineA := t.lineA, lineB := t.lineB } ∧ NotArrived t n ∧
    ∀ k, (s.ctx n).cohort = some k →
      t.cohort k = Cohort.settled (Cohort.withLive n (s.cohort k)) ∧ ∀ l, LineJudged l s t := by
  cases hk : (s.ctx n).cohort with
  | none =>
    have heq : joinLive n s = s := by
      unfold joinLive
      rw [hk]
    rw [heq]
    exact ⟨rfl, hna, nofun⟩
  | some k =>
    have hx : (s.setCohort k (Cohort.withLive n (s.cohort k))).cohort k = Cohort.withLive n (s.cohort k) := by
      rw [cohort_setCohort, if_pos rfl]
    obtain ⟨hf, hck, hcj, hline⟩ := settleCohort_spec (k := k) (s := s.setCohort k (Cohort.withLive n (s.cohort k)))
      (Or.inr (Or.inr (by rw [hx]; exact withLive_incomplete (hna k))))
    rw [hx] at hck
    rw [joinLive_some hk]
    generalize settleCohort k (s.setCohort k (Cohort.withLive n (s.cohort k))) = t at hf hck hcj hline
    refine ⟨by rw [hf]; rfl, fun j => ?_, fun j hj => ?_⟩
    · by_cases hj : j = k
      · rw [hj, hck, (settled_sets _).1]
        exact hna k
      · rw [hcj j hj, cohort_setCohort, if_neg hj]
        exact hna j
    · obtain rfl := Option.some.inj hj
      exact ⟨hck, fun l => lineJudged_congr (hline l) (setCohort_line _ _ _ _).symm rfl rfl⟩

/-- The round that the station joins is not ready if it is bound to a line, or was not before. -/
theorem settled_withLive {n : StationId} {x : Cohort} (ha : Cohort.Absent n x) (hp : Cohort.Pends x) :
    n ∈ (Cohort.settled (Cohort.withLive n x)).live ∧ Cohort.Absent n (Cohort.settled (Cohort.withLive n x)) ∧
    (Cohort.settled (Cohort.withLive n x)).ready = false := by
  obtain ⟨harr, hlive, _⟩ := settled_sets (Cohort.withLive n x)
  refine ⟨by rw [hlive]; simp [Cohort.withLive], fun a h => ha a (by rw [harr] at h; exact h), ?_⟩
  unfold Cohort.settled
  split
  · rfl
  · split
    · next hb => exact hp.resolve_left (fun h => h hb)
    · exact withLive_incomplete ha

/-- A line that a round which is not ready is bound to. -/
theorem releaseCondition_unready {t : State} {k : CohortId} {l : Line} (ha : (t.cohort k).arrived ≠ [])
    (hb : (t.cohort k).binding = some l) (hr : (t.cohort k).ready = false) : t.releaseCondition l = false := by
  have hbound : (t.cohort k).boundTo l = true := by
    unfold Cohort.boundTo
    rw [hb]
    simpa using ha
  unfold State.releaseCondition
  refine Bool.and_eq_false_iff.mpr (Or.inr (List.all_eq_false.mpr ⟨k, List.mem_finRange k, ?_⟩))
  rw [hbound, hr]
  exact Bool.false_ne_true

/-- A line in PULL or OPEN pulls while a round bound to it is not ready (R158). -/
theorem lineJudged_pulls {l : Line} {s t : State} (h : LineJudged l s t) (hc : t.releaseCondition l = false)
    (hd : (s.line l).drive = .pull ∨ (s.line l).drive = .open) : (t.line l).drive = .pull ∧ (t.line l).pin = false := by
  have hdrive : (t.line l).drive = .pull := by
    rcases hd with hd | hd
    · rw [h.2.2 (Or.inr (Or.inr (Or.inr ⟨hd, Or.inl hc⟩)))]
      exact hd
    · exact h.2.1 hd hc
  exact ⟨hdrive, by rw [pin_of _ hdrive]; simp⟩

/-- The join of a station, seen after the rest of its event. -/
theorem joinsLive_of {calm : Prop} {n : StationId} {s p q r t : State} (hna : NotArrived s n) (hp : Aside n s p)
    (hq : q.cohorts = p.cohorts) (hql : ∀ l, q.line l = p.line l) (hr : r.cohorts = (joinLive n q).cohorts)
    (hrl : ∀ l, r.line l = (joinLive n q).line l) (ht : ∀ k, CohortAside n (r.cohort k) (t.cohort k))
    (hk : (t.ctx n).cohort = (q.ctx n).cohort)
    (hcalm : calm → p.cohorts = s.cohorts ∧ (∀ l, p.line l = s.line l) ∧ t.cohorts = r.cohorts ∧ ∀ l, t.line l = r.line l) :
    JoinsLive calm n s t := by
  have hcq : ∀ k, q.cohort k = p.cohort k := fun k => by
    unfold State.cohort
    rw [hq]
  have hnaq : NotArrived q n := fun k => by
    rw [hcq]
    exact (hp.cohort k).absent (hna k)
  obtain ⟨_, _, hjoin⟩ := joinLive_spec hnaq
  intro k hck
  obtain ⟨hx, hline⟩ := hjoin k (by rw [← hk]; exact hck)
  have hrk : r.cohort k = Cohort.settled (Cohort.withLive n (p.cohort k)) := by
    rw [← hcq, ← hx]
    unfold State.cohort
    rw [hr]
  have hlive : n ∈ (r.cohort k).live := by
    rw [hrk, (settled_sets _).2.1]
    simp [Cohort.withLive]
  refine ⟨(ht k).live.mpr hlive, fun l hb => ?_⟩
  obtain ⟨_, habs, hready⟩ := settled_withLive ((hp.cohort k).absent (hna k)) ((hp.cohort k).pends (Or.inl (by rw [hb]; nofun)))
  rw [← hrk] at habs hready
  refine ⟨(ht k).unready hlive habs hready, fun h => ?_⟩
  obtain ⟨hpc, hpl, htc, htl⟩ := hcalm h
  have hpk : p.cohort k = s.cohort k := by
    unfold State.cohort
    rw [hpc]
  have hjudged : LineJudged l s t := lineJudged_congr (hline l) ((hpl l).symm.trans (hql l).symm) ((htl l).trans (hrl l)) (htc.trans hr)
  refine ⟨fun _ => hjudged, fun harr hd => lineJudged_pulls hjudged ?_ hd⟩
  have htk : t.cohort k = r.cohort k := by
    unfold State.cohort
    rw [htc]
  have hset : t.cohort k = { Cohort.withLive n (s.cohort k) with ready := (Cohort.withLive n (s.cohort k)).complete } := by
    rw [htk, hrk, hpk]
    unfold Cohort.settled
    rw [if_neg (show (Cohort.withLive n (s.cohort k)).arrived ≠ [] from harr),
      if_neg (show (Cohort.withLive n (s.cohort k)).binding ≠ none from fun e => nomatch hb.symm.trans e)]
  refine releaseCondition_unready (k := k) (by rw [hset]; exact harr) (by rw [hset]; exact hb) ?_
  rw [htk]
  exact hready

/-! ### The enable (R11, R12, R16) -/

/-- The station that an enable leaves. -/
def enrolledSt (x : Station) (h : HostHalf) : Station :=
  { x with
    ctx := { (x.ctx.counted h) with
      settings := Settings.default, skipDebt := 0, badMark := false, halt := .none, base := h.base, exp := h.exp,
      cohort := (cohortOf h.cohort).join, state := .ready },
    link := { x.link with latch := none } }

/-- The part once the station has joined its cohort, before its part-half write. -/
def enrolled (n : StationId) (h : HostHalf) (s : State) : State := joinLive n (s.setSt n (enrolledSt (s.st n) h))

theorem enabled_eq (n : StationId) (h : HostHalf) (s : State) : enabled n h s = queuePartHalf n (enrolled n h s) := rfl

theorem enrolled_spec {n : StationId} {h : HostHalf} {s : State} (hna : NotArrived s n) :
    (enrolled n h s).st n = enrolledSt (s.st n) h ∧ (∀ m, m ≠ n → (enrolled n h s).st m = s.st m) ∧
    (enrolled n h s).ctl = s.ctl := by
  obtain ⟨hf, _⟩ := joinLive_spec (s := s.setSt n (enrolledSt (s.st n) h)) hna
  unfold enrolled
  refine ⟨?_, fun m hm => ?_, by rw [hf]; rfl⟩
  · rw [hf]
    exact setSt_st_self ..
  · rw [hf]
    exact (onlyStation_setSt s n _).2 m hm

/-- A READY station takes a handover count. -/
theorem handoverStep_ready {n : StationId} {h : HostHalf} {u : State} (hs : (u.ctx n).state = .ready) :
    ((u.ctx n).disabling = true → handoverStep n h u = u) ∧
    ((u.ctx n).disabling = false → (u.ctx n).handoverPasses h.handover = true →
      handoverStep n h u = takeNext n (u.setCtx n { u.ctx n with
        lastRead := h.handover, badMark := false, posting := (u.ctx n).posting.cut (u.ctx n).taken h.handover })) ∧
    ((u.ctx n).disabling = false → (u.ctx n).handoverPasses h.handover = false →
      handoverStep n h u = enterHalted n .badHandover u) := by
  have hgo : (u.ctx n).disabling = false →
      ¬((u.ctx n).state = .idle ∨ ((u.ctx n).state = .halted ∧ (u.ctx n).halt = .badEntry) ∨ (u.ctx n).disabling = true) := by
    intro hd
    rw [hs, hd]
    simp
  unfold handoverStep
  dsimp only
  refine ⟨fun hd => if_pos (Or.inr (Or.inr hd)), fun hd hp => ?_, fun hd hp => ?_⟩
  · rw [if_neg (hgo hd), if_pos hp]
    exact if_pos hs
  · rw [if_neg (hgo hd), if_neg (by rw [hp]; exact Bool.false_ne_true)]
    unfold handoverFailed
    rw [hs]

/-- Counts that the station has seen already are not taken again. -/
theorem counts_seen {n : StationId} {h : HostHalf} {u : State} (hstop : h.stop = (u.ctx n).stopSeen)
    (hresume : h.resume = (u.ctx n).resumeSeen) : resumeStep n h (stopStep n h u) = u := by
  unfold resumeStep stopStep
  rw [if_pos hstop, if_pos hresume]

/-- The turn of an IDLE station whose host half passes the checks of an enable. -/
theorem observe_enables {n : StationId} {bs : List Byte} {u : State} (hs : (u.ctx n).state = .idle)
    (hon : (hostHalfOf bs).enabled = true) (hv : (hostHalfOf bs).valid = true) (hna : NotArrived u n) :
    observe n bs u = handoverStep n (hostHalfOf bs) (queuePartHalf n (enrolled n (hostHalfOf bs) u)) := by
  have hctx : (queuePartHalf n (enrolled n (hostHalfOf bs) u)).ctx n = (enrolledSt (u.st n) (hostHalfOf bs)).ctx := by
    rw [queuePartHalf_ctx, State.ctx, (enrolled_spec hna).1]
  unfold observe modeStep enable
  dsimp only
  rw [if_pos hon, if_pos hs, if_pos hv, enabled_eq, counts_seen (by rw [hctx]; rfl) (by rw [hctx]; rfl)]

/-- The turn of an IDLE station whose host half fails them. -/
theorem observe_badEntry {n : StationId} {bs : List Byte} {u : State} (hs : (u.ctx n).state = .idle)
    (hon : (hostHalfOf bs).enabled = true) (hv : (hostHalfOf bs).valid = false) :
    observe n bs u = enterHalted n .badEntry (u.setCtx n ((u.ctx n).counted (hostHalfOf bs))) := by
  unfold observe modeStep enable badEntry
  dsimp only
  rw [if_pos hon, if_pos hs, if_neg (by rw [hv]; exact Bool.false_ne_true), if_neg (by rw [hs]; nofun)]
  have hctx := enterHalted_ctx n .badEntry (u.setCtx n ((u.ctx n).counted (hostHalfOf bs)))
  rw [setCtx_ctx_self] at hctx
  generalize enterHalted n .badEntry (u.setCtx n ((u.ctx n).counted (hostHalfOf bs))) = v at hctx ⊢
  rw [counts_seen (by rw [hctx]; rfl) (by rw [hctx]; rfl)]
  unfold handoverStep
  exact if_pos (Or.inr (Or.inl (by rw [hctx]; exact ⟨rfl, rfl⟩)))

end Sys2Proof.Proofs
end

section
/-! PROOFS. What the rest of a sweep leaves of a station after its turn, the notices it asks for, and the enable of a station
that a completed sweep brings (R9 to R12, R16, R179). -/

namespace Sys2Proof.Proofs

open Sys2Proof.Machine Sys2Proof.Laws

/-! ### The arrived sets never gain a station here -/

theorem notArrived_congr {n : StationId} {s t : State} (h : NotArrived s n) (hc : t.cohorts = s.cohorts) : NotArrived t n := by
  unfold NotArrived State.cohort at h ⊢
  rw [hc]
  exact h

theorem notArrived_settleCohort {n : StationId} {s : State} (k : CohortId) (h : NotArrived s n) :
    NotArrived (settleCohort k s) n := by
  obtain ⟨v, hv, hcases⟩ := settleCohort_cases k s
  intro j a ha
  by_cases hj : j = k
  · rw [hj] at ha
    exact h k a ((settleCohort_sets k s).2 a ha)
  · have hc : (settleCohort k s).cohort j = s.cohort j := by
      rw [hv, judgeLine_cohort, judgeLine_cohort]
      rcases hcases with rfl | ⟨x, rfl⟩
      · exact (releaseRound_frame k s).2 j hj
      · rw [cohort_setCohort, if_neg hj]
    rw [hc] at ha
    exact h j a ha

theorem notArrived_setCohort {n : StationId} {s : State} {k : CohortId} {x : Cohort} (h : NotArrived s n)
    (hx : ∀ a ∈ x.arrived, a ∈ (s.cohort k).arrived) : NotArrived (s.setCohort k x) n := by
  intro j a ha
  rw [cohort_setCohort] at ha
  split at ha
  · exact h k a (hx a ha)
  · exact h j a ha

/-- No act but a BARRIER brings a station into an arrived set. -/
theorem notArrived_kept (n : StationId) : KeptByHalts (fun _ => True) (NotArrived · n) where
  setSt h _ := notArrived_congr h rfl
  edge h _ := notArrived_congr h rfl
  offer h _ := notArrived_congr h (by simp)
  partHalf h _ := notArrived_congr h (by simp)
  withdraw h _ := notArrived_congr h rfl
  abandonUnits h _ := notArrived_congr h (by simp)
  abandonCollect h _ := notArrived_congr h (by simp)
  leaveList h _ := notArrived_congr h rfl
  arbitrate h := notArrived_congr h (by simp)
  joinLive h _ := by
    unfold Machine.joinLive
    split
    · exact h
    · exact notArrived_settleCohort _ (notArrived_setCohort h fun _ => id)
  leaveLive h _ := by
    unfold Machine.leaveLive
    split
    · exact h
    · split
      · exact notArrived_settleCohort _ (notArrived_setCohort h fun a ha => (List.mem_filter.mp ha).1)
      · exact h
  leaveArrived h _ := by
    unfold Machine.leaveArrived
    split
    · exact h
    · split
      · exact notArrived_settleCohort _ (notArrived_setCohort h fun a ha => (List.mem_filter.mp ha).1)
      · exact h
  attention h _ := notArrived_congr h (by simp)

/-! ### The rest of the event -/

/-- What the rest of an event leaves of a station after its turn. -/
structure Rest (n : StationId) (s t : State) : Prop where
  st : t.st n = s.st n
  ctl : t.ctl = s.ctl
  now : t.now = s.now
  unbound : Unbound n s → Unbound n t
  cohort : ∀ k, CohortAside n (s.cohort k) (t.cohort k)
  partHalf : ∀ P, PartHalfQueued n P s → PartHalfQueued n P t
  fetch : FetchOffered n s → FetchOffered n t
  bit : s.notice.attention.getLsbD n = true → t.notice.attention.getLsbD n = true

namespace Rest

variable {n : StationId} {s t u : State}

theorem trans (h : Rest n s t) (k : Rest n t u) : Rest n s u :=
  ⟨k.st.trans h.st, k.ctl.trans h.ctl, k.now.trans h.now, k.unbound ∘ h.unbound, fun c => (h.cohort c).trans (k.cohort c),
    fun P => k.partHalf P ∘ h.partHalf P, k.fetch ∘ h.fetch, k.bit ∘ h.bit⟩

theorem ctx (h : Rest n s t) : t.ctx n = s.ctx n := congrArg Station.ctx h.st

/-- A change of the engine, the sweep and the notices alone. -/
theorem of_shared (hf : t = { s with engine := t.engine, sweep := t.sweep, notice := t.notice })
    (hp : ∀ P, PartHalfQueued n P s → PartHalfQueued n P t) (hq : FetchOffered n s → FetchOffered n t)
    (hb : t.notice.attention = s.notice.attention) : Rest n s t where
  st := by rw [hf]; rfl
  ctl := by rw [hf]
  now := by rw [hf]; rfl
  unbound h := by rw [hf]; exact h
  cohort k := by rw [hf]; exact .refl n _
  partHalf := hp
  fetch := hq
  bit h := by rw [hb]; exact h

theorem reports {P : List Byte → Prop} (h : Rest n s t) (k : PartHalfReports n P s) : PartHalfReports n P t :=
  fun ht => h.partHalf P (k ((takesWrites_congr h.ctl).mp ht))

theorem shows (h : Rest n s t) (k : PartHalfReports n (ShowsPartHalf n s) s) : PartHalfReports n (ShowsPartHalf n t) t := by
  have hshow : ShowsPartHalf n t = ShowsPartHalf n s := by
    unfold ShowsPartHalf
    rw [h.st, h.ctx, h.now]
  rw [hshow]
  exact h.reports k

/-- A station that has halted in its turn is halted at the end of the event. -/
theorem haltedNow {r : HaltReason} (h : Rest n s t) (k : HaltedNow n r s) : HaltedNow n r t := by
  obtain ⟨hctx, hchan, hunit, hwait, hout, hbit, hshows⟩ := k
  obtain ⟨hwait', hunit'⟩ := h.unbound ⟨hwait, hunit⟩
  refine ⟨by rw [h.ctx]; exact hctx, fun c => ?_, hunit', hwait', fun k hk => ?_, h.bit hbit, h.shows hshows⟩
  · unfold State.chan
    rw [h.st]
    exact hchan c
  · rw [h.ctx] at hk
    obtain ⟨hlive, harr⟩ := hout k hk
    exact ⟨fun hm => hlive ((h.cohort k).live.mp hm), (h.cohort k).absent harr⟩

end Rest

theorem fetchOffered_congr {n : StationId} {s t : State} (hst : t.st n = s.st n)
    (hw : ∀ q : Request, q.kind = .fetch n → RequestWaits q s → RequestWaits q t) (h : FetchOffered n s) : FetchOffered n t := by
  have hctx : t.ctx n = s.ctx n := congrArg Station.ctx hst
  unfold FetchOffered fetchRead at h ⊢
  rw [hctx]
  exact h.imp id (hw _ rfl)

/-- The fetch read that a station has offered is touched by no act of the others. -/
theorem fetchWaits_kept {n : StationId} {q : Request} (hq : q.kind = .fetch n) : KeptByChangeOf (· ≠ n) (RequestWaits q) where
  contents h _ _ _ _ := h
  line {_ l _} h _ := by cases l <;> exact h
  offer h _ := requestWaits_offer h
  partHalf h m _ := requestWaits_queuePartHalf (by rw [hq]; exact nofun) h
  withdraw h m hm := h.imp id fun hr => List.mem_filter.mpr ⟨hr, by rw [hq]; simpa using hm.symm⟩
  attention h m _ := by
    unfold RequestWaits at h ⊢
    rw [setAttention_engine]
    exact h

/-- An attention bit that is set stays set. -/
theorem attentionBit_kept (n : StationId) : KeptByChange fun u => u.notice.attention.getLsbD n = true where
  contents h _ _ _ _ := h
  line {_ l _} h _ := by cases l <;> exact h
  offer h hr := by
    rw [offer_notice _ _ hr]
    exact h
  partHalf h m _ := by
    rw [queuePartHalf_attention]
    exact h
  withdraw h _ _ := h
  attention {u} h m _ := by
    rw [setAttention_bit _ _ u (by omega), h, Bool.true_or]

/-- The turns of the others after a station that no grant and no release reaches. -/
theorem rest_turns {n : StationId} {l : List StationId} (hl : n ∉ l) {s : State} (h : OutOfReach n s) (data : List Byte) :
    Rest n s (l.foldl (fun t m => observe m (hostBytes data m) t) s) := by
  have hturns : ∀ {P : State → Prop}, KeptByHalts (· ≠ n) P → P s →
      P (l.foldl (fun t m => observe m (hostBytes data m) t) s) := fun {P} K hs =>
    foldl_keeps_others (P := P) (f := fun t m => observe m (hostBytes data m) t) (fun hm ht => K.observe ht hm) hl hs
  have haside := hturns (aside_kept h) (.refl n s)
  have hbit : s.notice.attention.getLsbD n = true → _ := fun hb => foldl_keeps_prop (P := fun u => u.notice.attention.getLsbD n = true)
    (f := fun t m => observe m (hostBytes data m) t) (fun m ht => (attentionBit_kept n).halts.observe ht trivial) l hb
  have hqueued := fun P => hturns (partHalfQueued_kept n P).halts
  have hfetch := fun (q : Request) (hq : q.kind = .fetch n) => hturns (fetchWaits_kept hq).halts
  generalize l.foldl (fun t m => observe m (hostBytes data m) t) s = t at haside hbit hqueued hfetch ⊢
  exact ⟨haside.st, haside.ctl, haside.now, haside.unbound, haside.cohort, hqueued, fetchOffered_congr haside.st hfetch, hbit⟩

/-- The end of the sweep. -/
theorem endSweep_frame (s : State) :
    ∃ x, endSweep s = { s with sweep := x } ∨ ∃ r : Request, (∀ m, r.kind ≠ .partHalf m) ∧
      endSweep s = { s with sweep := x, engine := (offer r s).engine } := by
  unfold endSweep
  dsimp only
  split
  · exact ⟨{ timer := some (250 * s.ctl.period.toNat), pending := false, inFlight := true },
      Or.inr ⟨directoryRead s.ctl.base, nofun, by rw [beginSweep_eq, offer_engine]; rfl⟩⟩
  · exact ⟨{ s.sweep with inFlight := false }, Or.inl rfl⟩

theorem rest_endSweep (n : StationId) (s : State) : Rest n s (endSweep s) := by
  obtain ⟨x, h | ⟨r, hr, h⟩⟩ := endSweep_frame s <;> rw [h]
  · exact .of_shared rfl (fun _ => id) id rfl
  · exact .of_shared rfl (fun _ h => partHalfQueued_congr (s := offer r s) rfl (partHalfQueued_offer r h))
      (fetchOffered_congr rfl fun _ _ h => requestWaits_offer (r := r) h) rfl

theorem rest_noticeKick (n : StationId) (s : State) : Rest n s (noticeKick s) := by
  refine .of_shared ?_ (fun P h => ?_) fetchOffered_noticeKick (noticeKick_attention s)
  · by_cases h : SendDue s
    · have hf := (noticeKick_of_due h).2.2.1
      rw [hf]
    · rw [noticeKick_of_not h]
  · rcases noticeKick_engine s with he | ⟨r, _, he⟩
    · exact partHalfQueued_congr he h
    · exact partHalfQueued_congr he (partHalfQueued_offer r h)

/-! ### The notices of a sweep (R179, R180) -/

/-- The event so far has left the writer, its count and the mask, and has set the pending flag with the station's attention
bit if the bit was clear and is admitted. -/
structure Asked (n : StationId) (s u : State) : Prop where
  writer : u.notice.writer = s.notice.writer
  count : u.notice.count = s.notice.count
  mask : u.notice.mask = s.notice.mask
  pending : s.notice.attention.getLsbD n = false → s.notice.mask.getLsbD n = true →
    u.notice.attention.getLsbD n = true → u.notice.pending = true

namespace Asked

variable {n : StationId} {s t u : State}

theorem refl (n : StationId) (s : State) : Asked n s s :=
  ⟨rfl, rfl, rfl, fun h _ k => by rw [h] at k; cases k⟩

/-- A later change of the held updates that a send awaits alone. -/
theorem same (h : Asked n s t) (k : NoticeSame t u) : Asked n s u where
  writer := k.writer.trans h.writer
  count := k.count.trans h.count
  mask := k.mask.trans h.mask
  pending hb hm ha := by
    rw [k.pending]
    exact h.pending hb hm (by rw [← k.attention]; exact ha)

end Asked

/-- Whatever the stations do, a notice that one of them asks for is not lost. -/
theorem asked_kept (n : StationId) (s : State) : KeptByChange (Asked n s) where
  contents {t} h _ _ _ _ := h.same ((noticeSame_kept t).contents (.refl t) ..)
  line {t _ _} h hx := h.same ((noticeSame_kept t).line (.refl t) hx)
  offer {t _} h hr := h.same ((noticeSame_kept t).offer (.refl t) hr)
  partHalf {t} h m hm := h.same ((noticeSame_kept t).partHalf (.refl t) m hm)
  withdraw {t} h m hm := h.same ((noticeSame_kept t).withdraw (.refl t) m hm)
  attention {t} h m _ := by
    by_cases hset : t.notice.attention.getLsbD m = true
    · rw [setAttention_again _ hset]
      exact h
    · have heq : setAttention m.1 t = { t with notice := { t.notice with
          attention := t.notice.attention ||| BitVec.twoPow 32 m, pending := t.notice.pending || t.notice.mask.getLsbD m } } :=
        if_neg hset
      have hbit := setAttention_bit m.1 n.1 t (by omega)
      refine ⟨by rw [heq]; exact h.writer, by rw [heq]; exact h.count, by rw [heq]; exact h.mask, fun hb hm ha => ?_⟩
      have hpend : (setAttention m.1 t).notice.pending = (t.notice.pending || t.notice.mask.getLsbD m) := by rw [heq]
      rw [hpend]
      by_cases hmn : m = n
      · rw [hmn, h.mask, hm, Bool.or_true]
      · rw [hbit, decide_eq_false (fun e => hmn (Fin.ext e)), Bool.or_false] at ha
        rw [h.pending hb hm ha, Bool.true_or]

/-- The send that may begin at the end of the event is the notice that the station has asked for. -/
theorem noticeAsked_of_asked {n : StationId} {s u : State} (h : Asked n s u) (hb : u.notice.attention.getLsbD n = true) :
    NoticeAsked n s (noticeKick u) := by
  obtain ⟨hsends, hno⟩ := noticeFollows_of (i := n.1) (s := u) (u := u) (by rw [setAttention_again _ hb]) rfl rfl
  intro hclear hmask
  have hpend := h.pending hclear hmask hb
  refine ⟨fun hw hm => ?_, fun hor => ?_⟩
  · have hbegun := hsends ⟨Or.inl hpend, h.writer.trans hw, hm⟩
    unfold SendBegun at hbegun ⊢
    rw [← h.count]
    exact hbegun
  · refine ((hno fun ⟨_, hw, hm⟩ => ?_).2.2).mpr (Or.inl hpend)
    exact hor.elim (fun h' => h' (h.writer.symm.trans hw)) fun h' => h' hm

end Sys2Proof.Proofs
end

section
/-! PROOFS. The enable of an IDLE station that a completed sweep brings (R9 to R12, R16). -/

namespace Sys2Proof.Proofs

open Sys2Proof.Machine Sys2Proof.Laws

/-! ### The turn of the station (R11, R16) -/

/-- A host half whose handover count is its origin, or not. -/
theorem enrolled_passes (x : Station) (h : HostHalf) :
    (enrolledSt x h).ctx.handoverPasses h.handover = decide ((h.handover - h.origin).toNat ≤ 2 ^ h.exp) := by
  unfold Context.handoverPasses enrolledSt Context.counted
  exact Bool.and_self _

section Turn

variable {n : StationId} {bs : List Byte} {p : State}

/-- The host half hands nothing over: the station is READY. -/
theorem observe_ready (hs : (p.ctx n).state = .idle) (hon : (hostHalfOf bs).enabled = true)
    (hv : (hostHalfOf bs).valid = true) (hna : NotArrived p n) (ho : (hostHalfOf bs).handover = (hostHalfOf bs).origin) :
    let h := hostHalfOf bs
    let r := observe n bs p
    let x := enrolledSt (p.st n) h
    OnlyStationShared n (enrolled n h p) r ∧ (∃ y, r.st n = { x with ctx := { x.ctx with posting := y } }) ∧
    PartHalfReports n (ShowsPartHalf n r) r := by
  obtain ⟨hst, _⟩ := enrolled_spec (h := hostHalfOf bs) hna
  have hpass := enrolled_passes (p.st n) (hostHalfOf bs)
  dsimp only
  rw [observe_enables hs hon hv hna]
  generalize hostHalfOf bs = h at hst hpass ho ⊢
  generalize enrolled n h p = j at hst ⊢
  have hshared := queuePartHalf_shared n n j
  have hshows := queuePartHalf_shows n j
  have hest : (queuePartHalf n j).st n = enrolledSt (p.st n) h := by rw [queuePartHalf_st, hst]
  generalize queuePartHalf n j = e at hshared hshows hest ⊢
  have hctx : e.ctx n = (enrolledSt (p.st n) h).ctx := congrArg Station.ctx hest
  obtain ⟨hdis, hgo, _⟩ := handoverStep_ready (n := n) (h := h) (u := e) (by rw [hctx]; rfl)
  cases hd : (e.ctx n).disabling with
  | true =>
    rw [hdis hd]
    exact ⟨hshared, ⟨(enrolledSt (p.st n) h).ctx.posting, hest⟩, hshows⟩
  | false =>
    have hp : (e.ctx n).handoverPasses h.handover = true := by
      rw [hctx, hpass, ho]
      simp
    rw [hgo hd hp, takeNext_ready (by rw [setCtx_ctx_self, hctx]; exact ho), setCtx_setCtx, setCtx_ctx_self, hctx]
    have hset : ∀ c : Context, (e.setCtx n c).st n = { enrolledSt (p.st n) h with ctx := c } := fun c => by
      rw [setCtx_st_self, hest]
    have hc : ({ (enrolledSt (p.st n) h).ctx with
        lastRead := h.handover, badMark := false, state := .ready, posting := .none } : Context) =
        { (enrolledSt (p.st n) h).ctx with posting := .none } := by
      rw [ho]
      rfl
    rw [hc]
    refine ⟨onlyStationShared_trans hshared (onlyStationShared_setSt ..), ⟨.none, hset _⟩, fun ht => ?_⟩
    refine PartHalfQueued.imp (fun bytes hb => ?_) (s := e) rfl (hshows ht)
    obtain ⟨lastRead, hb⟩ := hb
    refine ⟨lastRead, ?_⟩
    rw [hb, hest, hctx, hset, setCtx_ctx_self]
    rfl

/-- The host half hands records over: the first is fetched. -/
theorem observe_fetches (ha : p.ctl.state = .active) (hs : (p.ctx n).state = .idle) (hon : (hostHalfOf bs).enabled = true)
    (hv : (hostHalfOf bs).valid = true) (hna : NotArrived p n) (hd : (p.ctx n).disabling = false)
    (ho : (hostHalfOf bs).handover ≠ (hostHalfOf bs).origin)
    (hp : ((hostHalfOf bs).handover - (hostHalfOf bs).origin).toNat ≤ 2 ^ (hostHalfOf bs).exp) :
    let h := hostHalfOf bs
    let r := observe n bs p
    let x := enrolledSt (p.st n) h
    OnlyStationShared n (enrolled n h p) r ∧
    (∃ b, r.st n = { x with ctx := { x.ctx with
      state := .fetching, posting := .none, taken := h.origin + 1, lastRead := h.handover, backlog := b } }) ∧
    FetchOffered n r ∧ RetiredReported n h.origin r := by
  obtain ⟨hst, _, hctl⟩ := enrolled_spec (h := hostHalfOf bs) hna
  have hpass := enrolled_passes (p.st n) (hostHalfOf bs)
  dsimp only
  rw [observe_enables hs hon hv hna]
  generalize hostHalfOf bs = h at hst hctl hpass ho hp ⊢
  generalize enrolled n h p = j at hst hctl ⊢
  have hshared := queuePartHalf_shared n n j
  have hreports : RetiredReported n h.origin (queuePartHalf n j) := queuePartHalf_reports_of (by
    rw [hst, partHalfBytes_retired]
    rfl)
  have hest : (queuePartHalf n j).st n = enrolledSt (p.st n) h := by rw [queuePartHalf_st, hst]
  have hectl : (queuePartHalf n j).ctl = p.ctl := (queuePartHalf_ctl n j).trans hctl
  generalize queuePartHalf n j = e at hshared hreports hest hectl ⊢
  have hctx : e.ctx n = (enrolledSt (p.st n) h).ctx := congrArg Station.ctx hest
  obtain ⟨_, hgo, _⟩ := handoverStep_ready (n := n) (h := h) (u := e) (by rw [hctx]; rfl)
  rw [hgo (by rw [hctx]; exact hd) (by rw [hctx, hpass]; exact decide_eq_true hp)]
  generalize hc : ({ e.ctx n with
    lastRead := h.handover, badMark := false, posting := (e.ctx n).posting.cut (e.ctx n).taken h.handover } : Context) = c
  have hvctx : (e.setCtx n c).ctx n = c := setCtx_ctx_self ..
  have hcread : c.lastRead = h.handover := by rw [← hc]
  have hctaken : c.taken = h.origin := by rw [← hc, hctx]; rfl
  have hcdebt : c.skipDebt = 0 := by rw [← hc, hctx]; rfl
  have hact : (e.setCtx n c).ctl.state = .active := by
    show e.ctl.state = .active
    rw [hectl, ha]
  have hvst : (e.setCtx n c).st n = { enrolledSt (p.st n) h with ctx := c } := by rw [setCtx_st_self, hest]
  have hrep : RetiredReported n h.origin (takeNext n (e.setCtx n c)) := reports_takeNext (u := e.setCtx n c) hreports (Or.inl hact)
  rw [takeNext_fetch (by rw [hvctx, hcread, hctaken]; exact ho) (by rw [hvctx]; exact hcdebt)] at hrep ⊢
  obtain ⟨⟨b, hb⟩, hrst, hoff, honly⟩ := startFetch_spec (n := n) hact
  refine ⟨onlyStationShared_trans hshared
    (onlyStationShared_trans (onlyStationShared_setSt ..) (onlyStationShared_of_engine honly)), ⟨b, ?_⟩, hoff, hrep⟩
  rw [hrst, hb, hvst, hvctx, ← hc, hctx]
  rfl

/-- The host half hands over more records than its ring holds: the station halts. -/
theorem observe_badHandover (hs : (p.ctx n).state = .idle) (hon : (hostHalfOf bs).enabled = true)
    (hv : (hostHalfOf bs).valid = true) (hna : NotArrived p n) (hd : (p.ctx n).disabling = false)
    (hp : 2 ^ (hostHalfOf bs).exp < ((hostHalfOf bs).handover - (hostHalfOf bs).origin).toNat) :
    let e := queuePartHalf n (enrolled n (hostHalfOf bs) p)
    observe n bs p = enterHalted n .badHandover e ∧ e.st n = enrolledSt (p.st n) (hostHalfOf bs) := by
  obtain ⟨hst, _⟩ := enrolled_spec (h := hostHalfOf bs) hna
  have hpass := enrolled_passes (p.st n) (hostHalfOf bs)
  dsimp only
  rw [observe_enables hs hon hv hna]
  generalize hostHalfOf bs = h at hst hpass hp ⊢
  have hest : (queuePartHalf n (enrolled n h p)).st n = enrolledSt (p.st n) h := by rw [queuePartHalf_st, hst]
  generalize queuePartHalf n (enrolled n h p) = e at hest ⊢
  have hctx : e.ctx n = (enrolledSt (p.st n) h).ctx := congrArg Station.ctx hest
  obtain ⟨_, _, hfail⟩ := handoverStep_ready (n := n) (h := h) (u := e) (by rw [hctx]; rfl)
  exact ⟨hfail (by rw [hctx]; exact hd) (by rw [hctx, hpass]; exact decide_eq_false (by omega)), hest⟩

end Turn

/-! ### The sweep around the turn -/

/-- A sweep that completes with `data` takes the station's turn in a state `p` and ends in `t`. -/
structure SweepTurn (n : StationId) (data : List Byte) (s p t : State) : Prop where
  aside : Aside n s p
  rest : OutOfReach n (observe n (hostBytes data n) p) → Rest n (observe n (hostBytes data n) p) t
  notice : t.notice.attention.getLsbD n = true → NoticeAsked n s t
  calm : OthersCalm s n data → (observe n (hostBytes data n) p).ctl = p.ctl →
    (∀ m, m ≠ n → (observe n (hostBytes data n) p).st m = p.st m) →
    p.cohorts = s.cohorts ∧ (∀ l, p.line l = s.line l) ∧ t.cohorts = (observe n (hostBytes data n) p).cohorts ∧
    ∀ l, t.line l = (observe n (hostBytes data n) p).line l

theorem freeRead_aside (n : StationId) (tag : Nat) (s : State) : Aside n s (freeRead tag s) :=
  .of_kept (st_congr (refill_stations _) n) (refill_fixed _) (fun v => by unfold State.unit freeRead; simp)
    (refill_waitList _) (refill_cohorts _)

theorem endSweep_cohorts (s : State) : (endSweep s).cohorts = s.cohorts ∧ ∀ l, (endSweep s).line l = s.line l := by
  obtain ⟨x, h | ⟨r, _, h⟩⟩ := endSweep_frame s <;> rw [h] <;> exact ⟨rfl, fun l => by cases l <;> rfl⟩

theorem noticeSame_endSweep (s : State) : NoticeSame s (endSweep s) := by
  obtain ⟨x, h | ⟨r, _, h⟩⟩ := endSweep_frame s <;> rw [h] <;> exact ⟨rfl, rfl, rfl, rfl, rfl⟩

theorem noticeKick_cohorts_lines (s : State) : (noticeKick s).cohorts = s.cohorts ∧ ∀ l, (noticeKick s).line l = s.line l :=
  ⟨by simp, fun l => by cases l <;> simp [State.line]⟩

/-- A completed sweep, by the turn of one of its stations. -/
theorem sweep_turn {n : StationId} {s : State} {tag first : Nat} {last data : List Byte} (h : SweepArrives s tag first last data)
    (hstep : (s.ctx n).step = none) (hna : NotArrived s n) :
    ∃ p t, exec (.readCompletion tag .success first last) s = .next t ∧ SweepTurn n data s p t := by
  obtain ⟨hactive, hlen, e, r, he, hr, hk, hlength, hfirst, hdata⟩ := h
  have hexec := readCompletion_done he hr (data := last) (by rw [hlength, ← hlen, hdata, List.length_append])
  rw [hk, ← hfirst, ← hdata] at hexec
  have hfree := freeRead_aside n tag s
  have hfst : ∀ m, (freeRead tag s).st m = s.st m := st_congr (refill_stations _)
  have hfl : ∀ l, (freeRead tag s).line l = s.line l := fun l => by cases l <;> simp [State.line, freeRead]
  have hfc : (freeRead tag s).cohorts = s.cohorts := refill_cohorts _
  have hasked : Asked n s (freeRead tag s) := (Asked.refl n s).same (noticeSame_freeRead tag s)
  generalize freeRead tag s = u at hexec hfree hfst hfl hfc hasked
  have hua : u.ctl.state = .active := by rw [hfree.ctl, hactive]
  have hdone : readDone .sweepRead data u = noticeKick (endSweep (observeAll data u)) := by
    unfold readDone State.active
    rw [hua]
    rfl
  rw [hdone] at hexec
  obtain ⟨before, after, hb, ha, hnodup, hfold⟩ := foldl_finRange_turn (fun t m => observe m (hostBytes data m) t) n u
  have hall : observeAll data u = (List.finRange 24).foldl (fun t m => observe m (hostBytes data m) t) u := rfl
  have hreach : OutOfReach n u := Or.inr ⟨by rw [hfree.ctx]; exact hstep, notArrived_congr hna hfc⟩
  have hbefore : Aside n u (before.foldl (fun t m => observe m (hostBytes data m) t) u) :=
    foldl_keeps_others (P := Aside n u) (f := fun t m => observe m (hostBytes data m) t)
      (fun hm ht => (aside_kept hreach).observe ht hm) hb (.refl n u)
  have hasks : Asked n s (observeAll data u) := (asked_kept n s).halts.observeAll hasked fun _ => trivial
  have hcalmb := calm_turns data (l := before) (s := u) (List.nodup_append.mp hnodup).1 hua
  rw [hall, hfold] at hexec hasks
  have hbefore' : Aside n s (before.foldl (fun t m => observe m (hostBytes data m) t) u) := hfree.trans hbefore
  refine ⟨_, _, hexec, hbefore', fun hrest => ?_, fun hbit => ?_, fun hcalm hctl hst => ?_⟩
  · exact (rest_turns ha hrest data).trans ((rest_endSweep n _).trans (rest_noticeKick n _))
  · rw [noticeKick_attention] at hbit
    exact noticeAsked_of_asked (hasks.same (noticeSame_endSweep _)) hbit
  · have hkept := hcalmb fun m hm => by
      rw [State.ctx, hfst]
      exact hcalm m fun e => hb (e ▸ hm)
    generalize before.foldl (fun t m => observe m (hostBytes data m) t) u = p at hctl hst hkept hbefore' ⊢
    have hafter := calm_turns data (l := after) (s := observe n (hostBytes data n) p) (List.nodup_append.mp hnodup).2.1
      (by rw [hctl, hbefore'.ctl]; exact hactive) fun m hm => by
        have hmn : m ≠ n := fun e => ha (e ▸ hm)
        have hmb : m ∉ before := fun h => (List.nodup_append.mp hnodup).2.2 m h m hm rfl
        rw [State.ctx, hst m hmn, hkept.st m hmb, hfst]
        exact hcalm m hmn
    generalize after.foldl (fun t m => observe m (hostBytes data m) t) (observe n (hostBytes data n) p) = v at hafter ⊢
    obtain ⟨hec, hel⟩ := endSweep_cohorts v
    obtain ⟨hkc, hkl⟩ := noticeKick_cohorts_lines (endSweep v)
    exact ⟨hkept.cohorts.trans hfc, fun l => (hkept.line l).trans (hfl l), by rw [hkc, hec, hafter.cohorts],
      fun l => by rw [hkl, hel, hafter.line]⟩

namespace SweepTurn

variable {n : StationId} {data : List Byte} {s p t : State}

/-- No grant and no release reaches a station without a step after its turn. -/
theorem outOfReach (h : SweepTurn n data s p t) (hna : NotArrived s n)
    (hstep : ((observe n (hostBytes data n) p).ctx n).step = none) : OutOfReach n (observe n (hostBytes data n) p) :=
  Or.inr ⟨hstep, (notArrived_kept n).observe (fun k => (h.aside.cohort k).absent (hna k)) trivial⟩

/-- The station that the sweep has enabled has joined its cohort. -/
theorem joins (h : SweepTurn n data s p t) (hna : NotArrived s n)
    (hshared : OnlyStationShared n (enrolled n (observed data n) p) (observe n (hostBytes data n) p))
    (hrest : Rest n (observe n (hostBytes data n) p) t)
    (hk : ((observe n (hostBytes data n) p).ctx n).cohort = (enrolledSt (p.st n) (observed data n)).ctx.cohort) :
    JoinsLive (OthersCalm s n data) n s t := by
  have hcalm := h.calm
  have hctx := hrest.ctx
  have hcohort := hrest.cohort
  obtain ⟨_, hothers, hctl⟩ := enrolled_spec (h := observed data n) (s := p) fun k => (h.aside.cohort k).absent (hna k)
  generalize observe n (hostBytes data n) p = r at hshared hcalm hctx hcohort hk
  obtain ⟨hf, ho⟩ := hshared
  refine joinsLive_of (q := p.setSt n (enrolledSt (p.st n) (observed data n))) (r := r) hna h.aside rfl (fun l => setSt_line ..)
    (by rw [hf]; rfl) (fun l => by rw [hf]; cases l <;> rfl) hcohort ?_ fun hc => ?_
  · rw [hctx, hk, State.ctx, setSt_st_self]
  · exact hcalm hc (by rw [hf]; exact hctl) fun m hm => (ho m hm).trans (hothers m hm)

/-- A station that has halted in its turn. -/
theorem halts (h : SweepTurn n data s p t) (hna : NotArrived s n) {r : HaltReason} {u : State}
    (heq : observe n (hostBytes data n) p = enterHalted n r u) : HasHalted n r s t ∧ t.st n = (enterHalted n r u).st n := by
  have hrest := h.rest (h.outOfReach hna (by rw [heq, enterHalted_ctx]))
  rw [heq] at hrest
  have hhalted := hrest.haltedNow (enterHalted_haltedNow n r u)
  have ⟨_, _, _, _, _, hbit, _⟩ := hhalted
  exact ⟨hasHalted_of hhalted (h.notice hbit), hrest.st⟩

end SweepTurn

/-- Settles O31, by the turn of the station among the calm or arbitrary turns of the others. -/
theorem completedSweepEnablesIdleStation : Obligations.CompletedSweepEnablesIdleStation := by
  intro s n tag first last data hsweep hidle hstep hna
  obtain ⟨p, t, hexec, hturn⟩ := sweep_turn hsweep hstep hna
  have hst := hturn.aside.st
  have hctx := hturn.aside.ctx
  have hpna : NotArrived p n := fun k => (hturn.aside.cohort k).absent (hna k)
  have hpactive : p.ctl.state = .active := by rw [hturn.aside.ctl]; exact hsweep.1
  have hpidle : (p.ctx n).state = .idle := by rw [hctx]; exact hidle
  refine ⟨t, hexec, fun hon hv => ?_, fun hon hv => ?_⟩
  · have hcohort : some (cohortOf (observed data n).cohort).join = cohortOf (observed data n).cohort := by
      simp only [HostHalf.valid, Bool.and_eq_true, Option.isSome_iff_exists] at hv
      obtain ⟨_, c, hc⟩ := hv
      rw [hc]
      rfl
    refine ⟨fun ho => ?_, fun hd ho hle => ?_, fun hd hlt => ?_⟩
    · obtain ⟨hshared, ⟨y, hr⟩, hshows⟩ := observe_ready (bs := hostBytes data n) hpidle hon hv hpna ho
      have hrctx := congrArg Station.ctx hr
      have hrest := hturn.rest (hturn.outOfReach hna (by
        rw [State.ctx, hrctx]
        exact (congrArg Context.step hctx).trans hstep))
      have htst := hrest.st.trans hr
      have htctx := congrArg Station.ctx htst
      refine ⟨?_, hturn.joins hna hshared hrest (by rw [State.ctx, hrctx]; rfl), congrArg Context.state htctx,
        congrArg Context.halt htctx, congrArg Context.taken htctx, congrArg Context.lastRead htctx, hrest.shows hshows⟩
      unfold EnabledBy CountsTaken State.ctx
      rw [htst]
      exact ⟨⟨rfl, rfl, rfl, rfl⟩, rfl, rfl, hcohort, rfl, rfl, rfl, rfl⟩
    · obtain ⟨hshared, ⟨b, hr⟩, hoff, hreports⟩ := observe_fetches (bs := hostBytes data n) hpactive hpidle hon hv hpna
        (by rw [hctx]; exact hd) ho hle
      have hrctx := congrArg Station.ctx hr
      have hrest := hturn.rest (hturn.outOfReach hna (by
        rw [State.ctx, hrctx]
        exact (congrArg Context.step hctx).trans hstep))
      have htst := hrest.st.trans hr
      have htctx := congrArg Station.ctx htst
      refine ⟨?_, hturn.joins hna hshared hrest (by rw [State.ctx, hrctx]; rfl), congrArg Context.state htctx,
        congrArg Context.halt htctx, congrArg Context.taken htctx, congrArg Context.lastRead htctx, hrest.fetch hoff,
        hrest.reports hreports⟩
      unfold EnabledBy CountsTaken State.ctx
      rw [htst]
      exact ⟨⟨rfl, rfl, rfl, rfl⟩, rfl, rfl, hcohort, rfl, rfl, rfl, rfl⟩
    · obtain ⟨heq, hest⟩ := observe_badHandover (bs := hostBytes data n) hpidle hon hv hpna (by rw [hctx]; exact hd) hlt
      obtain ⟨hhalted, htst⟩ := hturn.halts hna heq
      have hectx := congrArg Station.ctx hest
      rw [enterHalted_st, enterHalted_ctx, State.ctx, hest] at htst
      have htctx := congrArg Station.ctx htst
      refine ⟨?_, hhalted, congrArg Context.taken htctx, congrArg Context.lastRead htctx⟩
      unfold EnabledBy CountsTaken State.ctx
      rw [htst]
      exact ⟨⟨rfl, rfl, rfl, rfl⟩, rfl, rfl, hcohort, rfl, rfl, rfl, rfl⟩
  · obtain ⟨hhalted, htst⟩ := hturn.halts hna (observe_badEntry (bs := hostBytes data n) hpidle hon hv)
    have htctx := congrArg Station.ctx htst
    rw [← State.ctx, ← State.ctx, enterHalted_ctx, setCtx_ctx_self, hctx] at htctx
    rw [htctx]
    exact ⟨⟨rfl, rfl, rfl, rfl⟩, hhalted, rfl, rfl, rfl, rfl, rfl⟩

end Sys2Proof.Proofs
end
